-- ==== Sys2Proof/Config.lean ====
section
/-! DEFINITION. The parameters of 00_scope.md R9 that the meanings compare lengths with. Every value is fixed by R9; the
one OPEN parameter, `PORT_MAP` (92_eei_decisions.md D33), takes no value in a transaction-level model (log entry 2).
There is no free value: 93_implementation_defined.md, end of part 1, "No behaviour of this hardware is `any value`". -/

namespace Sys2Proof.Config

/-- `DIGEST`: the native digest size in bytes, the largest legal `OUTLEN` (R9, R78). -/
abbrev digestLen : Nat := 64

/-- `HBLOCK`: the hash block size in bytes, also the size of the canonical MAC key (R9). -/
abbrev hashBlock : Nat := 128

/-- `KEYLEN`: the bytes of a cipher key (R9). -/
abbrev keyLen : Nat := 32

/-- `NONCELEN`: the bytes of a cipher nonce (R9). -/
abbrev nonceLen : Nat := 8

/-- `CBLOCK`, `GBUF`: the bytes of a keystream block and of the generator buffer (R9). -/
abbrev keystreamBlock : Nat := 64

/-- `CROUNDS`: 20 rounds made of 10 double-rounds (R9). -/
abbrev doubleRounds : Nat := 10

/-- `LENW`: the width of the field `LEN`, so a payload has at most 65535 bytes (R9). -/
abbrev lenBits : Nat := 16

end Sys2Proof.Config
end

