-- ==== Sys2Proof/Word.lean ====
section
/-! DEFINITION. The word types of SOCKDOC-CORE (00_scope.md R9, R10): bytes, the 32-bit words of the cipher and of the
command port, the 64-bit words of the hash. -/

namespace Sys2Proof

/-- One byte of a payload, of an output or of an internal byte array (R10). -/
abbrev Byte := BitVec 8

/-- A cipher word, and a command word on the port `CMD` (R9 `CW32`, `CMDW`). -/
abbrev Word32 := BitVec 32

/-- A hash word (R9 `HW`). -/
abbrev Word64 := BitVec 64

end Sys2Proof
end

