-- ==== Sys2Proof/Machine/Bytes.lean ====
section
/-! DEFINITION. Conversions between bytes and words (00_scope.md R12) and the two accesses to an internal byte array
(R13, 20_memory.md R65). Both orders are written over `fromLE` and `leBytes`, the two loops of R12. -/

namespace Sys2Proof.Machine

/-- `FromLE(b)`: the unsigned value of a byte string read least significant byte first (R12). -/
def fromLE : List Byte → Nat
  | [] => 0
  | b :: bs => b.toNat + 256 * fromLE bs

/-- `LE_W(v)` for `W = 8 * n`: the `n` bytes of `v`, least significant byte first (R12). -/
def leBytes : Nat → Nat → List Byte
  | 0, _ => []
  | n + 1, v => BitVec.ofNat 8 v :: leBytes n (v / 256)

/-- `FromLE32(b)` (R12). -/
def fromLE32 (b : List Byte) : Word32 := BitVec.ofNat 32 (fromLE b)

/-- `LE32(w)` (R12). -/
def le32 (w : Word32) : List Byte := leBytes 4 w.toNat

/-- `FromBE64(b)` (R12). -/
def fromBE64 (b : List Byte) : Word64 := BitVec.ofNat 64 (fromLE b.reverse)

/-- `BE64(w)` (R12). -/
def be64 (w : Word64) : List Byte := (leBytes 8 w.toNat).reverse

/-- `0^n`: `n` zero bytes (R10). -/
def zeros (n : Nat) : List Byte := List.replicate n 0

/-- `MemRead(B+i, n)`: the bytes `B[i..i+n-1]` (R13, R65). -/
def memRead {N : Nat} (B : Vector Byte N) (i n : Nat) : List Byte := (B.toList.drop i).take n

/-- `MemWrite(B+i, n, v)` with `n = |v|`: byte `j` becomes `v[j-i]` for `i ≤ j < i+n`, the others stay (R13, R65). -/
def memWrite {N : Nat} (B : Vector Byte N) (i : Nat) (v : List Byte) : Vector Byte N :=
  Vector.ofFn fun j => if i ≤ j.val ∧ j.val < i + v.length then v.getD (j.val - i) 0 else B[j]

end Sys2Proof.Machine
end

