-- ==== Sys2Proof/Syntax.lean ====
section
/-! DEFINITION. The commands of SOCKDOC-CORE: one constructor per row of spec/opcode_table.json (30_encoding.md R81).

A command is a frame: the command word together with its payload (R75, glossary R15 "Command, frame"). The operand `inp`
is the payload, and `LEN` is its length, because `in_len = LEN` for every opcode but `PRG_FILL` (R80); `PRG_FILL` has no
payload and carries `len` itself. `arg` is the field `ARG` (R76) wherever the opcode alone selects the command (R81), so
that a reserved `ARG` value reaches the command's own checks; the accessors and the uniform commands are told apart by
`ARG` (R79), which leaves them no `arg` operand. A command whose `LEN` must be some fixed size still carries the payload
its word announced: the engine takes those bytes and discards them (20_memory.md R52). -/

namespace Sys2Proof

inductive Instr where
  /-- `SYS_RESET` (R210). -/
  | sysReset (arg : Byte) (inp : List Byte)
  /-- `SYS_STATUS` (R211). -/
  | sysStatus (arg : Byte) (inp : List Byte)
  /-- `HASH_INIT` (R110). -/
  | hashInit (arg : Byte) (inp : List Byte)
  /-- `HASH_UPDATE` (R111). -/
  | hashUpdate (arg : Byte) (inp : List Byte)
  /-- `HASH_FINAL` with `OUTLEN` in `ARG` (R112). -/
  | hashFinal (outlen : Byte) (inp : List Byte)
  /-- `HASH_ONESHOT` with `OUTLEN` in `ARG` (R113). -/
  | hashOneshot (outlen : Byte) (inp : List Byte)
  /-- `MAC_INIT`, the payload is the key (R131). -/
  | macInit (arg : Byte) (inp : List Byte)
  /-- `MAC_UPDATE` (R132). -/
  | macUpdate (arg : Byte) (inp : List Byte)
  /-- `MAC_FINAL` with `OUTLEN` in `ARG` (R133). -/
  | macFinal (outlen : Byte) (inp : List Byte)
  /-- `MAC_VERIFY` with `OUTLEN` in `ARG`, the payload is the expected tag (R134). -/
  | macVerify (outlen : Byte) (inp : List Byte)
  /-- `CIPH_KEY`, the payload is the key (R160). -/
  | ciphKey (arg : Byte) (inp : List Byte)
  /-- `CIPH_NONCE`, the payload is the nonce (R161). -/
  | ciphNonce (arg : Byte) (inp : List Byte)
  /-- `CIPH_BLOCK` (R162). -/
  | ciphBlock (arg : Byte) (inp : List Byte)
  /-- `PRG_SEED`, the payload is the seed material (R177). -/
  | prgSeed (arg : Byte) (inp : List Byte)
  /-- `PRG_STIR`, the payload is the extra entropy (R178). -/
  | prgStir (arg : Byte) (inp : List Byte)
  /-- `PRG_FILL`, `LEN` is the number of bytes requested and there is no payload (R179, R80). -/
  | prgFill (arg : Byte) (len : BitVec 16)
  /-- `PRG_RAND8` (R180). -/
  | prgRand8 (inp : List Byte)
  /-- `PRG_RAND16` (R180). -/
  | prgRand16 (inp : List Byte)
  /-- `PRG_RAND32` (R180). -/
  | prgRand32 (inp : List Byte)
  /-- `PRG_RAND64` (R180). -/
  | prgRand64 (inp : List Byte)
  /-- `PRG_UNIFORM8`, the payload is the bound (R182). -/
  | prgUniform8 (inp : List Byte)
  /-- `PRG_UNIFORM16`, the payload is the bound (R182). -/
  | prgUniform16 (inp : List Byte)
  /-- `PRG_UNIFORM32`, the payload is the bound (R182). -/
  | prgUniform32 (inp : List Byte)
  /-- `PRG_UNIFORM64`, the payload is the bound (R182). -/
  | prgUniform64 (inp : List Byte)
  deriving DecidableEq, Repr

end Sys2Proof
end

