-- ==== Sys2Proof/WellFormed.lean ====
section
/-! DEFINITION. When a command is a frame the encoding can express, and the legal values of its fields.

`Instr.wellFormed` is what the 16-bit field `LEN` can announce: a payload of at most 65535 bytes (30_encoding.md R80).
`Instr.legal` is stricter: no check on the word itself fails, that is `ARG`, `OUTLEN` and `LEN` have the values R78, R79,
R80 and the table of R81 call legal. A frame that is well-formed and not legal is a command all the same: it runs, and
ends with an error status (60_exceptions.md R222 to R224). -/

namespace Sys2Proof

/-- The payload of a command; `PRG_FILL` has none (R80). -/
def Instr.payload : Instr → List Byte
  | .sysReset _ inp => inp
  | .sysStatus _ inp => inp
  | .hashInit _ inp => inp
  | .hashUpdate _ inp => inp
  | .hashFinal _ inp => inp
  | .hashOneshot _ inp => inp
  | .macInit _ inp => inp
  | .macUpdate _ inp => inp
  | .macFinal _ inp => inp
  | .macVerify _ inp => inp
  | .ciphKey _ inp => inp
  | .ciphNonce _ inp => inp
  | .ciphBlock _ inp => inp
  | .prgSeed _ inp => inp
  | .prgStir _ inp => inp
  | .prgFill _ _ => []
  | .prgRand8 inp => inp
  | .prgRand16 inp => inp
  | .prgRand32 inp => inp
  | .prgRand64 inp => inp
  | .prgUniform8 inp => inp
  | .prgUniform16 inp => inp
  | .prgUniform32 inp => inp
  | .prgUniform64 inp => inp

/-- The payload fits the field `LEN` (R80). -/
abbrev Instr.wellFormed (i : Instr) : Prop := i.payload.length < 2 ^ Config.lenBits

/-- `ARG` is zero wherever it must be (R79, R81, R83). The commands with an `OUTLEN` and those told apart by `WSEL` have
no such field. -/
abbrev Instr.argLegal : Instr → Prop
  | .sysReset arg _ => arg = 0
  | .sysStatus arg _ => arg = 0
  | .hashInit arg _ => arg = 0
  | .hashUpdate arg _ => arg = 0
  | .hashFinal _ _ => True
  | .hashOneshot _ _ => True
  | .macInit arg _ => arg = 0
  | .macUpdate arg _ => arg = 0
  | .macFinal _ _ => True
  | .macVerify _ _ => True
  | .ciphKey arg _ => arg = 0
  | .ciphNonce arg _ => arg = 0
  | .ciphBlock arg _ => arg = 0
  | .prgSeed arg _ => arg = 0
  | .prgStir arg _ => arg = 0
  | .prgFill arg _ => arg = 0
  | .prgRand8 _ => True
  | .prgRand16 _ => True
  | .prgRand32 _ => True
  | .prgRand64 _ => True
  | .prgUniform8 _ => True
  | .prgUniform16 _ => True
  | .prgUniform32 _ => True
  | .prgUniform64 _ => True

/-- `OUTLEN` is in its range wherever there is one (R78). -/
abbrev Instr.outlenLegal : Instr → Prop
  | .hashFinal outlen _ => outlen.toNat ≤ Config.digestLen
  | .hashOneshot outlen _ => outlen.toNat ≤ Config.digestLen
  | .macFinal outlen _ => outlen.toNat ≤ Config.digestLen
  | .macVerify outlen _ => 1 ≤ outlen.toNat ∧ outlen.toNat ≤ Config.digestLen
  | .sysReset _ _ => True
  | .sysStatus _ _ => True
  | .hashInit _ _ => True
  | .hashUpdate _ _ => True
  | .macInit _ _ => True
  | .macUpdate _ _ => True
  | .ciphKey _ _ => True
  | .ciphNonce _ _ => True
  | .ciphBlock _ _ => True
  | .prgSeed _ _ => True
  | .prgStir _ _ => True
  | .prgFill _ _ => True
  | .prgRand8 _ => True
  | .prgRand16 _ => True
  | .prgRand32 _ => True
  | .prgRand64 _ => True
  | .prgUniform8 _ => True
  | .prgUniform16 _ => True
  | .prgUniform32 _ => True
  | .prgUniform64 _ => True

/-- `LEN` is the size the command requires (the column "required `LEN`" of R80). -/
abbrev Instr.lenLegal : Instr → Prop
  | .sysReset _ inp => inp.length = 0
  | .sysStatus _ inp => inp.length = 0
  | .hashInit _ inp => inp.length = 0
  | .hashUpdate _ _ => True
  | .hashFinal _ inp => inp.length = 0
  | .hashOneshot _ _ => True
  | .macInit _ _ => True
  | .macUpdate _ _ => True
  | .macFinal _ inp => inp.length = 0
  | .macVerify outlen inp => inp.length = outlen.toNat
  | .ciphKey _ inp => inp.length = Config.keyLen
  | .ciphNonce _ inp => inp.length = Config.nonceLen
  | .ciphBlock _ inp => inp.length = 0
  | .prgSeed _ _ => True
  | .prgStir _ _ => True
  | .prgFill _ _ => True
  | .prgRand8 inp => inp.length = 0
  | .prgRand16 inp => inp.length = 0
  | .prgRand32 inp => inp.length = 0
  | .prgRand64 inp => inp.length = 0
  | .prgUniform8 inp => inp.length = 1
  | .prgUniform16 inp => inp.length = 2
  | .prgUniform32 inp => inp.length = 4
  | .prgUniform64 inp => inp.length = 8

/-- Every field has a legal value (R78 to R80, R83; the columns `legal` of spec/opcode_table.json). -/
abbrev Instr.legal (i : Instr) : Prop := i.argLegal ∧ i.outlenLegal ∧ i.lenLegal

end Sys2Proof
end

