-- ==== Sys2Proof/Decode.lean ====
section
/-! DEFINITION. The command word (30_encoding.md R75, R76), the decoder over frames and, after it, the encoder.

`decode` is total on any command word and any payload bytes: a frame of an undefined opcode (R82), of a reserved `WSEL`
(R79) or with another number of payload bytes than its word announces (20_memory.md R52) is refused by name. -/

namespace Sys2Proof

/-- `OPCODE = CW[31:24]` (R76). -/
def opcodeOf (cw : Word32) : Byte := cw.extractLsb' 24 8

/-- `ARG = CW[23:16]` (R76). -/
def argOf (cw : Word32) : Byte := cw.extractLsb' 16 8

/-- `LEN = CW[15:0]` (R76). -/
def lenOf (cw : Word32) : BitVec 16 := cw.extractLsb' 0 16

/-- `CW = (OPCODE << 24) | (ARG << 16) | LEN` (R76). -/
def commandWord (opcode arg : Byte) (len : BitVec 16) : Word32 :=
  (opcode.setWidth 32 <<< 24) ||| (arg.setWidth 32 <<< 16) ||| len.setWidth 32

/-- `in_len(CW)`: 0 for the opcode 0x42 and `LEN` for every other opcode, defined or not (R52, R80). -/
def inLen (cw : Word32) : Nat := if opcodeOf cw = 0x42 then 0 else (lenOf cw).toNat

/-- Why a frame is no command. -/
inductive DecodeError where
  /-- The payload has not exactly `in_len` bytes (R52). -/
  | payloadLength
  /-- The opcode is in no row of the table of R81 (R82). -/
  | undefinedOpcode (opcode : Byte)
  /-- `WSEL` is above 3 (R79, R83). -/
  | reservedWsel (wsel : Byte)
  deriving DecidableEq, Repr

/-- The command of an opcode, an `ARG`, a `LEN` and a payload: the table of R81. -/
def decodeFields (opcode arg : Byte) (len : BitVec 16) (inp : List Byte) : Except DecodeError Instr :=
  match opcode with
  | 0x01#8 => .ok (.sysReset arg inp)
  | 0x02#8 => .ok (.sysStatus arg inp)
  | 0x10#8 => .ok (.hashInit arg inp)
  | 0x11#8 => .ok (.hashUpdate arg inp)
  | 0x12#8 => .ok (.hashFinal arg inp)
  | 0x13#8 => .ok (.hashOneshot arg inp)
  | 0x20#8 => .ok (.macInit arg inp)
  | 0x21#8 => .ok (.macUpdate arg inp)
  | 0x22#8 => .ok (.macFinal arg inp)
  | 0x23#8 => .ok (.macVerify arg inp)
  | 0x30#8 => .ok (.ciphKey arg inp)
  | 0x31#8 => .ok (.ciphNonce arg inp)
  | 0x32#8 => .ok (.ciphBlock arg inp)
  | 0x40#8 => .ok (.prgSeed arg inp)
  | 0x41#8 => .ok (.prgStir arg inp)
  | 0x42#8 => .ok (.prgFill arg len)
  | 0x43#8 =>
    match arg with
    | 0#8 => .ok (.prgRand8 inp)
    | 1#8 => .ok (.prgRand16 inp)
    | 2#8 => .ok (.prgRand32 inp)
    | 3#8 => .ok (.prgRand64 inp)
    | w => .error (.reservedWsel w)
  | 0x44#8 =>
    match arg with
    | 0#8 => .ok (.prgUniform8 inp)
    | 1#8 => .ok (.prgUniform16 inp)
    | 2#8 => .ok (.prgUniform32 inp)
    | 3#8 => .ok (.prgUniform64 inp)
    | w => .error (.reservedWsel w)
  | op => .error (.undefinedOpcode op)

/-- The command a frame stands for (R75, R81). -/
def decode (cw : Word32) (inp : List Byte) : Except DecodeError Instr :=
  if inp.length = inLen cw then decodeFields (opcodeOf cw) (argOf cw) (lenOf cw) inp
  else .error .payloadLength

/-- The opcode of a command (R81). -/
def Instr.opcode : Instr → Byte
  | .sysReset _ _ => 0x01
  | .sysStatus _ _ => 0x02
  | .hashInit _ _ => 0x10
  | .hashUpdate _ _ => 0x11
  | .hashFinal _ _ => 0x12
  | .hashOneshot _ _ => 0x13
  | .macInit _ _ => 0x20
  | .macUpdate _ _ => 0x21
  | .macFinal _ _ => 0x22
  | .macVerify _ _ => 0x23
  | .ciphKey _ _ => 0x30
  | .ciphNonce _ _ => 0x31
  | .ciphBlock _ _ => 0x32
  | .prgSeed _ _ => 0x40
  | .prgStir _ _ => 0x41
  | .prgFill _ _ => 0x42
  | .prgRand8 _ => 0x43
  | .prgRand16 _ => 0x43
  | .prgRand32 _ => 0x43
  | .prgRand64 _ => 0x43
  | .prgUniform8 _ => 0x44
  | .prgUniform16 _ => 0x44
  | .prgUniform32 _ => 0x44
  | .prgUniform64 _ => 0x44

/-- The field `ARG` of a command: its operand, or its `WSEL` (R79, R81). -/
def Instr.arg : Instr → Byte
  | .sysReset arg _ => arg
  | .sysStatus arg _ => arg
  | .hashInit arg _ => arg
  | .hashUpdate arg _ => arg
  | .hashFinal outlen _ => outlen
  | .hashOneshot outlen _ => outlen
  | .macInit arg _ => arg
  | .macUpdate arg _ => arg
  | .macFinal outlen _ => outlen
  | .macVerify outlen _ => outlen
  | .ciphKey arg _ => arg
  | .ciphNonce arg _ => arg
  | .ciphBlock arg _ => arg
  | .prgSeed arg _ => arg
  | .prgStir arg _ => arg
  | .prgFill arg _ => arg
  | .prgRand8 _ => 0
  | .prgRand16 _ => 1
  | .prgRand32 _ => 2
  | .prgRand64 _ => 3
  | .prgUniform8 _ => 0
  | .prgUniform16 _ => 1
  | .prgUniform32 _ => 2
  | .prgUniform64 _ => 3

/-- The field `LEN` of a command: the length of its payload, and for `PRG_FILL` the count (R80). -/
def Instr.len : Instr → BitVec 16
  | .prgFill _ len => len
  | i => BitVec.ofNat 16 i.payload.length

/-- The frame of a command: its command word and its payload (R75, R76). -/
def encode (i : Instr) : Word32 × List Byte := (commandWord i.opcode i.arg i.len, i.payload)

/-- The frame whose bits are `w`, numbered as spec/opcode_table.json numbers them: bits 31..0 are the command word, and
payload byte `j` is bits `8j+39..8j+32`; every bit from `nbits` on is 0 (log entry 4). -/
def tableFrame (nbits w : Nat) : Word32 × List Byte :=
  let v := w % 2 ^ nbits
  let cw := BitVec.ofNat 32 v
  (cw, Machine.leBytes (inLen cw) (v / 2 ^ 32))

/-- The command the decoder reads from the frame whose bits are `w`. -/
def decodeTableWord (nbits w : Nat) : Option Instr :=
  match decode (tableFrame nbits w).1 (tableFrame nbits w).2 with
  | .ok i => some i
  | .error _ => none

end Sys2Proof
end

