-- ==== Sys2Proof/Machine/State.lean ====
section
/-! DEFINITION. The architectural state of one SOCKDOC-CORE instance (10_state.md R20: "and nothing else"), the four
ports of its host interface (20_memory.md R51), its reset value (R40), and the reasons a step can stop. -/

namespace Sys2Proof.Machine

/-- Why the machine stops with a fault. There is no such reason: an error of this hardware is a status code, after which
the engine takes the next command (60_exceptions.md R229, R231), so it is a next state and the type is empty. -/
inductive Fault where
  deriving DecidableEq, Repr

/-- Why a step has no next state. -/
inductive Refusal where
  /-- Raised by `exec` alone, for an instruction that has no meaning yet (none is left). Safe: nothing is claimed. -/
  | notModelled (mnemonic : String)
  /-- Raised by `step` alone: the host presented a command word and fewer payload bytes than it announces. The hardware
  waits without end and the spec tells a model to refuse the run (20_memory.md R52; 93_implementation_defined.md U8).
  Safe: no claim about such a run can be proved. -/
  | shortPayload
  deriving DecidableEq, Repr

/-- The status codes of 60_exceptions.md R221; no other code is ever produced. -/
inductive Status where
  /-- `OK` (0x00). -/
  | ok
  /-- `E_ILLEGAL` (0x01). -/
  | eIllegal
  /-- `E_LEN` (0x02). -/
  | eLen
  /-- `E_OUTLEN` (0x03). -/
  | eOutlen
  /-- `E_SEQ` (0x04). -/
  | eSeq
  /-- `E_UNSEEDED` (0x05). -/
  | eUnseeded
  /-- `E_EXHAUSTED` (0x06). -/
  | eExhausted
  deriving DecidableEq, Repr

/-- `HMODE`, the phase of the hash session (R25); the value 3 never occurs. -/
inductive HMode where
  | idle
  | hash
  | mac
  deriving DecidableEq, Repr

/-- The hash session `HS` (R20 to R24). -/
structure HashSession where
  /-- `HS.h[0..7]`, the chaining value (R21). -/
  h : Vector Word64 8
  /-- `HS.buf[0..127]`, the residual buffer (R22). -/
  buf : Vector Byte 128
  /-- `HS.n`, the count of valid residual bytes, 0 to 127 at every command boundary (R23). -/
  n : Fin 128
  /-- `HS.bits`, the bits already compressed (R24). -/
  bits : Word64
  deriving DecidableEq, Repr

/-- A cipher context: `CS`, and the generator's own `GS.c` (R28, R29, R31). -/
structure CipherCtx where
  /-- `s[0..15]`: constants 0..3, key 4..11, counter 12..13, nonce 14..15 (R28). -/
  s : Vector Word32 16
  /-- The exhaustion flag `x`: the 96-bit field `s[14]:s[13]:s[12]` has carried out of its top bit (R29). -/
  x : Bool
  deriving DecidableEq, Repr

/-- The generator `GS` (R31 to R33). -/
structure Generator where
  /-- `GS.c`, the embedded cipher context (R31). -/
  c : CipherCtx
  /-- `GS.buf[0..63]`, the keystream buffer (R32). -/
  buf : Vector Byte 64
  /-- `GS.off`, the bytes of the buffer already consumed, 0 to 64 (R32). -/
  off : Fin 65
  deriving DecidableEq, Repr

/-- What the host does next at the block: it issues a command word on `CMD` (R51), or the platform asserts the reset
input between two commands (70_reset_and_hazards.md R250). -/
inductive PortEvent where
  | command (cw : Word32)
  | reset
  deriving DecidableEq, Repr

/-- What the engine finds at its ports: nothing, a reset, or one command frame; `s` is the state with it taken. -/
inductive Fetched (σ : Type) where
  | idle
  | reset (s : σ)
  | frame (cw : Word32) (inp : List Byte) (s : σ)

/-- The state: R20's objects, then the ports. -/
structure State where
  /-- `HS`. -/
  hs : HashSession
  /-- `HMODE` (R25). -/
  hmode : HMode
  /-- `MK[0..127]`, the canonical MAC key (R26). -/
  macKey : Vector Byte 128
  /-- `CS`, with the flag `CS.x`. -/
  cs : CipherCtx
  /-- `CK`: a key has been loaded into `CS` since reset (R29). -/
  ck : Bool
  /-- `CN`: a nonce has been loaded into `CS` since reset (R29). -/
  cn : Bool
  /-- `GS`, with the flag `GS.c.x`. -/
  gs : Generator
  /-- `GSD`: the generator is seeded (R34). -/
  gsd : Bool
  /-- `ERR`: the first error since reset, `ok` (0) while there is none (R35). -/
  err : Status
  /-- The model's own: what the host does next at `CMD` and at the reset input, the next one first (log entry 1). -/
  cmd : List PortEvent
  /-- The model's own: the payload bytes the host presents on `DIN`, the next one first (log entry 1). -/
  din : List Byte
  /-- The model's own: the status on `RSP` of the latest command, `none` before the first (log entry 3). -/
  rsp : Option Status
  /-- The model's own: the bytes on `DOUT` of the latest command (log entry 3). -/
  dout : List Byte
  deriving DecidableEq, Repr

/-- `HS` with every bit zero: after reset and after a wipe (R40, R41). -/
def HashSession.wiped : HashSession where
  h := Vector.replicate 8 0
  buf := Vector.replicate 128 0
  n := 0
  bits := 0

/-- A cipher context with every bit zero (R40). -/
def CipherCtx.wiped : CipherCtx where
  s := Vector.replicate 16 0
  x := false

/-- `GS` with every bit zero (R40). -/
def Generator.wiped : Generator where
  c := CipherCtx.wiped
  buf := Vector.replicate 64 0
  off := 0

/-- `MK` with every bit zero (R40). -/
def keyWiped : Vector Byte 128 := Vector.replicate 128 0

/-- The machine right after reset: every bit of every field of R20 is zero (R40); the host has issued nothing and no
command has been answered. -/
def State.reset : State where
  hs := HashSession.wiped
  hmode := .idle
  macKey := keyWiped
  cs := CipherCtx.wiped
  ck := false
  cn := false
  gs := Generator.wiped
  gsd := false
  err := .ok
  cmd := []
  din := []
  rsp := none
  dout := []

end Sys2Proof.Machine
end

