-- ==== Sys2Proof/Machine/CipherUnit.lean ====
section
/-! DEFINITION. The stream-cipher datapath and the procedures on a cipher context (43_cipher.md R150 to R159): `QR`, the
double-round, `Block`, `KeySetup`, `NonceSetup`, `Increment`, `ProduceBlock`. -/

namespace Sys2Proof.Machine

/-- The four constant words `C[0..3]` (R151). -/
def cipherConstants : Vector Word32 4 := #v[0x61707865, 0x3320646E, 0x79622D32, 0x6B206574]

/-- `QR(a, b, c, d)` (R152). -/
def qr (a b c d : Word32) : Word32 × Word32 × Word32 × Word32 :=
  let a := a + b
  let d := (d ^^^ a).rotateLeft 16
  let c := c + d
  let b := (b ^^^ c).rotateLeft 12
  let a := a + b
  let d := (d ^^^ a).rotateLeft 8
  let c := c + d
  let b := (b ^^^ c).rotateLeft 7
  (a, b, c, d)

/-- Replaces the words `i`, `j`, `k`, `l` by `QR` of them (R153). -/
def qrAt (i j k l : Fin 16) (x : Vector Word32 16) : Vector Word32 16 :=
  let r := qr x[i] x[j] x[k] x[l]
  (((x.set i r.1).set j r.2.1).set k r.2.2.1).set l r.2.2.2

/-- One double-round: the four columns, then the four diagonals (R153). -/
def doubleRound (x : Vector Word32 16) : Vector Word32 16 :=
  let x := qrAt 0 4 8 12 x
  let x := qrAt 1 5 9 13 x
  let x := qrAt 2 6 10 14 x
  let x := qrAt 3 7 11 15 x
  let x := qrAt 0 5 10 15 x
  let x := qrAt 1 6 11 12 x
  let x := qrAt 2 7 8 13 x
  qrAt 3 4 9 14 x

/-- `f` applied `m` times. -/
def iterate {α : Type} (f : α → α) : Nat → α → α
  | 0, a => a
  | m + 1, a => iterate f m (f a)

/-- `Block(s)`: ten double-rounds, the feed-forward, and the words little-endian (R154). -/
def block (s : Vector Word32 16) : List Byte :=
  let x := iterate doubleRound Config.doubleRounds s
  (Vector.ofFn fun i : Fin 16 => x[i] + s[i]).toList.flatMap le32

/-- `KeySetup(c, key)`: the constants in words 0 to 3, the key little-endian in words 4 to 11 (R155). -/
def keySetup (c : CipherCtx) (key : List Byte) : CipherCtx :=
  { c with
    s := Vector.ofFn fun i : Fin 16 =>
      if h : i.val < 4 then cipherConstants[i.val]
      else if i.val < 12 then fromLE32 ((key.drop (4 * (i.val - 4))).take 4)
      else c.s[i] }

/-- `NonceSetup(c, nonce)`: the counter words zero, the nonce little-endian in words 14 and 15, `x` cleared (R158). -/
def nonceSetup (c : CipherCtx) (nonce : List Byte) : CipherCtx :=
  { s := (((c.s.set 12 0).set 13 0).set 14 (fromLE32 (nonce.take 4))).set 15 (fromLE32 ((nonce.drop 4).take 4))
    x := false }

/-- `Increment(c)`: the counter goes up by one, with the carry through word 13 into word 14, whose own carry sets `x`
(R156). -/
def increment (c : CipherCtx) : CipherCtx :=
  let s := c.s.set 12 (c.s[12] + 1)
  if s[12] = 0 then
    let s := s.set 13 (s[13] + 1)
    if s[13] = 0 then
      let s := s.set 14 (s[14] + 1)
      if s[14] = 0 then { s := s, x := true } else { c with s := s }
    else { c with s := s }
  else { c with s := s }

/-- `ProduceBlock(c)`: the keystream block of the state before the increment, or `E_EXHAUSTED` (R159). -/
def produceBlock (c : CipherCtx) : Except Status (List Byte × CipherCtx) :=
  if c.x then .error .eExhausted else .ok (block c.s, increment c)

/-- The 96-bit counter field `s[14]:s[13]:s[12]` as a number (R156). -/
def CipherCtx.counter (c : CipherCtx) : Nat :=
  c.s[14].toNat * 2 ^ 64 + c.s[13].toNat * 2 ^ 32 + c.s[12].toNat

end Sys2Proof.Machine
end

