-- ==== Sys2Proof/Machine/Flags.lean ====
section
/-! DEFINITION. The codes of the status values and of `HMODE`, and the register `STATUS` as a view of the flags
(10_state.md R36). There are no arithmetic flags (R38). -/

namespace Sys2Proof.Machine

/-- The 8-bit code of a status (60_exceptions.md R221). -/
def Status.code : Status → BitVec 8
  | .ok => 0x00
  | .eIllegal => 0x01
  | .eLen => 0x02
  | .eOutlen => 0x03
  | .eSeq => 0x04
  | .eUnseeded => 0x05
  | .eExhausted => 0x06

/-- The 2-bit value of `HMODE` (R20, R25). -/
def HMode.code : HMode → BitVec 2
  | .idle => 0
  | .hash => 1
  | .mac => 2

/-- `STATUS`: reserved bits 31..15 zero, `GX` 14, `GSD` 13, `CX` 12, `CN` 11, `CK` 10, `HMODE` 9..8, `ERR` 7..0 (R36). -/
def State.statusReg (s : State) : Word32 :=
  0#17 ++ BitVec.ofBool s.gs.c.x ++ BitVec.ofBool s.gsd ++ BitVec.ofBool s.cs.x ++ BitVec.ofBool s.cn
    ++ BitVec.ofBool s.ck ++ s.hmode.code ++ s.err.code

end Sys2Proof.Machine
end

