-- ==== Sys2Proof/Machine/Operands.lean ====
section
/-! DEFINITION. The forms of the fields `ARG` and `LEN` and the check each form makes (30_encoding.md R78 to R80, R83).
A check is a condition under which the command ends and the status it ends with; a command lists its checks in the order
of 60_exceptions.md R228, and the first that holds is the one reported. -/

namespace Sys2Proof.Machine

/-- A condition under which a command ends, and the status it then ends with. -/
abbrev Check := Bool × Status

/-- `ARG` must be zero (R79, R83, R222). -/
def argZero (arg : Byte) : Check := (arg != 0, .eIllegal)

/-- `ARG` is an `OUTLEN` of 0 to 64 (R78, R224). -/
def outlenMax (outlen : Byte) : Check := (decide (Config.digestLen < outlen.toNat), .eOutlen)

/-- `ARG` is the `OUTLEN` of `MAC_VERIFY`, which is not 0 (R78, R224). -/
def outlenMin (outlen : Byte) : Check := (outlen == 0, .eOutlen)

/-- `LEN` must be `n`; `LEN` is the length of the payload (R80, R223). -/
def lenIs (n : Nat) (inp : List Byte) : Check := (inp.length != n, .eLen)

/-- The hash session must be in the mode `m` (R225). -/
def modeIs (m : HMode) (s : State) : Check := (s.hmode != m, .eSeq)

/-- `CS` must have a key and a nonce (R225, 43_cipher.md R162). -/
def keyed (s : State) : Check := (!s.ck || !s.cn, .eSeq)

/-- The generator must be seeded (R226). -/
def seeded (s : State) : Check := (!s.gsd, .eUnseeded)

/-- The status of the first check that holds (R228). -/
def firstError : List Check → Option Status
  | [] => none
  | c :: cs => if c.1 then some c.2 else firstError cs

end Sys2Proof.Machine
end

