-- ==== Sys2Proof/Machine/Ops.lean ====
section
/-! DEFINITION. The operations every command is built from: how a frame is taken from the ports, how a command ends with
`OK`, how it ends with an error (this hardware's way of taking an exception), and what reset clears.

There is no return from an exception: after an error the host issues the next command and the engine executes it as if
the failed one had not been issued (60_exceptions.md R231), so nothing stands beside `State.raise`. -/

namespace Sys2Proof.Machine

/-- `raise E(code)` (60_exceptions.md R229): the output is discarded, the code is put on `RSP`, and `ERR` takes it if no
error is latched yet (R35, R232). Nothing else changes. -/
def State.raise (s : State) (e : Status) : State :=
  { s with rsp := some e, dout := [], err := if s.err = .ok then e else s.err }

/-- A command ends with `OK` and the output `out` (R220, 30_encoding.md R85). -/
def State.respond (s : State) (out : List Byte) : State :=
  { s with rsp := some .ok, dout := out }

/-- A command whose checks are `checks`: it ends with the first error that holds, and nothing of `done` happens then
(R228, R229); when none holds it ends in `done`. -/
def State.guarded (s : State) (checks : List Check) (done : State) : Host.Outcome State Fault Refusal :=
  match firstError checks with
  | some e => .next (s.raise e)
  | none => .next done

/-- Every field of R20 at its reset value; the ports as they are (10_state.md R40, 45_system.md R210). -/
def State.clear (s : State) : State :=
  { State.reset with cmd := s.cmd, din := s.din, rsp := s.rsp, dout := s.dout }

/-- The reset input (70_reset_and_hazards.md R250): the effect of `State.clear`; the response ports are empty, as after
power-on, and what the host has still to issue stays (log entry 5). -/
def State.hardwareReset (s : State) : State :=
  { s.clear with rsp := none, dout := [] }

/-- What stands at the ports next (20_memory.md R51, R52): a command word takes exactly `in_len` bytes from `DIN`, or
as many as there are. -/
def State.fetch (s : State) : Fetched State :=
  match s.cmd with
  | [] => .idle
  | .reset :: rest => .reset { s with cmd := rest }
  | .command cw :: rest =>
    .frame cw (s.din.take (inLen cw)) { s with cmd := rest, din := s.din.drop (inLen cw) }

end Sys2Proof.Machine
end

