-- ==== Sys2Proof/Machine/Cipher.lean ====
section
/-! DEFINITION. The meanings of the cipher commands on the context `CS` (43_cipher.md R160 to R162). -/

namespace Sys2Proof.Machine

/-- `CIPH_KEY` (R160). -/
def execCiphKey (arg : Byte) (inp : List Byte) (s : State) : Host.Outcome State Fault Refusal :=
  s.guarded [argZero arg, lenIs Config.keyLen inp]
    ({ s with cs := keySetup s.cs inp, ck := true }.respond [])

/-- `CIPH_NONCE` (R161). -/
def execCiphNonce (arg : Byte) (inp : List Byte) (s : State) : Host.Outcome State Fault Refusal :=
  s.guarded [argZero arg, lenIs Config.nonceLen inp]
    ({ s with cs := nonceSetup s.cs inp, cn := true }.respond [])

/-- `CIPH_BLOCK` (R162). -/
def execCiphBlock (arg : Byte) (inp : List Byte) (s : State) : Host.Outcome State Fault Refusal :=
  s.guarded [argZero arg, lenIs 0 inp, keyed s]
    (match produceBlock s.cs with
     | .error e => s.raise e
     | .ok (ks, c) => { s with cs := c }.respond ks)

end Sys2Proof.Machine
end

