-- ==== Sys2Proof/Machine/HashUnit.lean ====
section
/-! DEFINITION. The hash datapath and its procedures (41_hash.md R100 to R109): the word functions, the constants, the
message schedule, `Compress`, and `Init`, `Absorb`, `Finish`, `SHA`. -/

namespace Sys2Proof.Machine

/-- `Ch` (R101). -/
def ch (x y z : Word64) : Word64 := (x &&& y) ^^^ (~~~x &&& z)

/-- `Maj` (R101). -/
def maj (x y z : Word64) : Word64 := (x &&& y) ^^^ (x &&& z) ^^^ (y &&& z)

/-- `BSIG0` (R101). -/
def bsig0 (x : Word64) : Word64 := x.rotateRight 28 ^^^ x.rotateRight 34 ^^^ x.rotateRight 39

/-- `BSIG1` (R101). -/
def bsig1 (x : Word64) : Word64 := x.rotateRight 14 ^^^ x.rotateRight 18 ^^^ x.rotateRight 41

/-- `SSIG0` (R101). -/
def ssig0 (x : Word64) : Word64 := x.rotateRight 1 ^^^ x.rotateRight 8 ^^^ (x >>> 7)

/-- `SSIG1` (R101). -/
def ssig1 (x : Word64) : Word64 := x.rotateRight 19 ^^^ x.rotateRight 61 ^^^ (x >>> 6)

/-- The initialisation constants `IV[0..7]` (R102). -/
def iv : Vector Word64 8 :=
  #v[0x6A09E667F3BCC908, 0xBB67AE8584CAA73B, 0x3C6EF372FE94F82B, 0xA54FF53A5F1D36F1,
     0x510E527FADE682D1, 0x9B05688C2B3E6C1F, 0x1F83D9ABFB41BD6B, 0x5BE0CD19137E2179]

/-- The round constants `K[0..79]` (R103). -/
def roundConstants : List Word64 :=
  [0x428A2F98D728AE22, 0x7137449123EF65CD, 0xB5C0FBCFEC4D3B2F, 0xE9B5DBA58189DBBC,
   0x3956C25BF348B538, 0x59F111F1B605D019, 0x923F82A4AF194F9B, 0xAB1C5ED5DA6D8118,
   0xD807AA98A3030242, 0x12835B0145706FBE, 0x243185BE4EE4B28C, 0x550C7DC3D5FFB4E2,
   0x72BE5D74F27B896F, 0x80DEB1FE3B1696B1, 0x9BDC06A725C71235, 0xC19BF174CF692694,
   0xE49B69C19EF14AD2, 0xEFBE4786384F25E3, 0x0FC19DC68B8CD5B5, 0x240CA1CC77AC9C65,
   0x2DE92C6F592B0275, 0x4A7484AA6EA6E483, 0x5CB0A9DCBD41FBD4, 0x76F988DA831153B5,
   0x983E5152EE66DFAB, 0xA831C66D2DB43210, 0xB00327C898FB213F, 0xBF597FC7BEEF0EE4,
   0xC6E00BF33DA88FC2, 0xD5A79147930AA725, 0x06CA6351E003826F, 0x142929670A0E6E70,
   0x27B70A8546D22FFC, 0x2E1B21385C26C926, 0x4D2C6DFC5AC42AED, 0x53380D139D95B3DF,
   0x650A73548BAF63DE, 0x766A0ABB3C77B2A8, 0x81C2C92E47EDAEE6, 0x92722C851482353B,
   0xA2BFE8A14CF10364, 0xA81A664BBC423001, 0xC24B8B70D0F89791, 0xC76C51A30654BE30,
   0xD192E819D6EF5218, 0xD69906245565A910, 0xF40E35855771202A, 0x106AA07032BBD1B8,
   0x19A4C116B8D2D0C8, 0x1E376C085141AB53, 0x2748774CDF8EEB99, 0x34B0BCB5E19B48A8,
   0x391C0CB3C5C95A63, 0x4ED8AA4AE3418ACB, 0x5B9CCA4F7763E373, 0x682E6FF3D6B2B8A3,
   0x748F82EE5DEFB2FC, 0x78A5636F43172F60, 0x84C87814A1F0AB72, 0x8CC702081A6439EC,
   0x90BEFFFA23631E28, 0xA4506CEBDE82BDE9, 0xBEF9A3F7B2C67915, 0xC67178F2E372532B,
   0xCA273ECEEA26619C, 0xD186B8C721C0C207, 0xEADA7DD6CDE0EB1E, 0xF57D4F7FEE6ED178,
   0x06F067AA72176FBA, 0x0A637DC5A2C898A6, 0x113F9804BEF90DAE, 0x1B710B35131C471B,
   0x28DB77F523047D84, 0x32CAAB7B40C72493, 0x3C9EBE0A15C9BEBC, 0x431D67C49C100D4C,
   0x4CC5D4BECB3E42B6, 0x597F299CFC657E2A, 0x5FCB6FAB3AD6FAEC, 0x6C44198C4A475817]

/-- Appends `m` schedule words. The words stand newest first, so for the word `W[t]` appended next the list holds
`W[t-1]` at place 0 and `W[t-16]` at place 15: `W[t] = SSIG1(W[t-2]) + W[t-7] + SSIG0(W[t-15]) + W[t-16]` (R104). -/
def extendSchedule : Nat → List Word64 → List Word64
  | 0, w => w
  | m + 1, w => extendSchedule m ((ssig1 (w.getD 1 0) + w.getD 6 0 + ssig0 (w.getD 14 0) + w.getD 15 0) :: w)

/-- The first 16 schedule words: the block read as big-endian words (R104, 20_memory.md R53). -/
def blockWords (B : Vector Byte 128) : List Word64 :=
  (List.range 16).map fun t => fromBE64 (memRead B (8 * t) 8)

/-- The 80 schedule words `W[0..79]` of a block, `W[0]` first (R104). -/
def schedule (B : Vector Byte 128) : List Word64 :=
  (extendSchedule 64 (blockWords B).reverse).reverse

/-- The eight variables of the rounds (R105). -/
structure Vars where
  a : Word64
  b : Word64
  c : Word64
  d : Word64
  e : Word64
  f : Word64
  g : Word64
  h : Word64
  deriving DecidableEq, Repr

/-- One round, with `kw = (K[t], W[t])` (R105). -/
def hashRound (v : Vars) (kw : Word64 × Word64) : Vars :=
  let t1 := v.h + bsig1 v.e + ch v.e v.f v.g + kw.1 + kw.2
  let t2 := bsig0 v.a + maj v.a v.b v.c
  { a := t1 + t2, b := v.a, c := v.b, d := v.c, e := v.d + t1, f := v.e, g := v.f, h := v.g }

/-- `Compress(H, B)`: 80 rounds and the addition back into the chaining value (R105). -/
def compress (H : Vector Word64 8) (B : Vector Byte 128) : Vector Word64 8 :=
  let v := (roundConstants.zip (schedule B)).foldl hashRound
    { a := H[0], b := H[1], c := H[2], d := H[3], e := H[4], f := H[5], g := H[6], h := H[7] }
  #v[H[0] + v.a, H[1] + v.b, H[2] + v.c, H[3] + v.d, H[4] + v.e, H[5] + v.f, H[6] + v.g, H[7] + v.h]

/-- `Init()`: the session with the initialisation constants and nothing absorbed (R106). -/
def initSession : HashSession where
  h := iv
  buf := Vector.replicate 128 0
  n := 0
  bits := 0

/-- One turn of the loop of `Absorb`: the byte goes to `HS.buf[HS.n]`, and a full block is compressed, counted and
cleared (R107). -/
def absorbByte (hs : HashSession) (b : Byte) : HashSession :=
  let buf := hs.buf.set hs.n b
  if h : hs.n.val + 1 < 128 then { hs with buf := buf, n := ⟨hs.n.val + 1, h⟩ }
  else { h := compress hs.h buf, buf := Vector.replicate 128 0, n := 0, bits := hs.bits + 1024 }

/-- `Absorb(data)` (R107). -/
def absorb (data : List Byte) (hs : HashSession) : HashSession := data.foldl absorbByte hs

/-- The digest of a chaining value: its eight words big-endian, the first word first (R108, 20_memory.md R53). -/
def digestBytes (h : Vector Word64 8) : List Byte := h.toList.flatMap be64

/-- `Finish()`: the 64-byte digest, and the session wiped (R108). -/
def finish (hs : HashSession) : List Byte × HashSession :=
  let total := hs.bits + 8 * BitVec.ofNat 64 hs.n.val
  let padded := hs.buf.set hs.n 0x80
  let two := 112 ≤ hs.n.val
  let h1 := if two then compress hs.h padded else hs.h
  let last := if two then Vector.replicate 128 0 else padded
  let last := memWrite (memWrite last 112 (zeros 8)) 120 (be64 total)
  (digestBytes (compress h1 last), HashSession.wiped)

/-- `SHA(m)`: the digest on a scratch context (R109). -/
def sha (m : List Byte) : List Byte := (finish (absorb m initSession)).1

end Sys2Proof.Machine
end

