-- ==== Sys2Proof/Machine/Hash.lean ====
section
/-! DEFINITION. The meanings of the hash commands (41_hash.md R110 to R113). -/

namespace Sys2Proof.Machine

/-- `HASH_INIT` (R110). -/
def execHashInit (arg : Byte) (inp : List Byte) (s : State) : Host.Outcome State Fault Refusal :=
  s.guarded [argZero arg, lenIs 0 inp]
    ({ s with macKey := keyWiped, hs := initSession, hmode := .hash }.respond [])

/-- `HASH_UPDATE` (R111). -/
def execHashUpdate (arg : Byte) (inp : List Byte) (s : State) : Host.Outcome State Fault Refusal :=
  s.guarded [argZero arg, modeIs .hash s]
    ({ s with hs := absorb inp s.hs }.respond [])

/-- `HASH_FINAL` (R112). -/
def execHashFinal (outlen : Byte) (inp : List Byte) (s : State) : Host.Outcome State Fault Refusal :=
  let r := finish s.hs
  s.guarded [outlenMax outlen, lenIs 0 inp, modeIs .hash s]
    ({ s with hs := r.2, hmode := .idle }.respond (r.1.take outlen.toNat))

/-- `HASH_ONESHOT` (R113). -/
def execHashOneshot (outlen : Byte) (inp : List Byte) (s : State) : Host.Outcome State Fault Refusal :=
  let r := finish (absorb inp initSession)
  s.guarded [outlenMax outlen]
    ({ s with macKey := keyWiped, hs := r.2, hmode := .idle }.respond (r.1.take outlen.toNat))

end Sys2Proof.Machine
end

