-- ==== Sys2Proof/Machine/MacUnit.lean ====
section
/-! DEFINITION. The keyed hash over the hash procedures (42_mac.md R130, R133): the pads, the canonical key, `MacTag`. -/

namespace Sys2Proof.Machine

/-- `IPAD` (R130). -/
def ipad : Byte := 0x36

/-- `OPAD` (R130). -/
def opad : Byte := 0x5C

/-- `X ^ c^128`: the byte `c` XORed into every byte (R130, R135). -/
def xorEach (c : Byte) (x : List Byte) : List Byte := x.map (· ^^^ c)

/-- `CanonKey(k)`: the key, or the digest of a key longer than a block, with zero bytes up to the block size (R130). -/
def canonKey (k : List Byte) : List Byte :=
  if k.length ≤ Config.hashBlock then k ++ zeros (Config.hashBlock - k.length)
  else sha k ++ zeros 64

/-- `MacTag()`: the 64-byte outer digest; the session and the key are wiped and no session is open (R133). -/
def macTag (s : State) : List Byte × State :=
  let inner := (finish s.hs).1
  let outer := finish (absorb inner (absorb (xorEach opad s.macKey.toList) initSession))
  (outer.1, { s with hs := outer.2, macKey := keyWiped, hmode := .idle })

end Sys2Proof.Machine
end

