-- ==== Sys2Proof/Machine/Mac.lean ====
section
/-! DEFINITION. The meanings of the keyed-hash commands (42_mac.md R131 to R134). -/

namespace Sys2Proof.Machine

/-- `MAC_INIT` (R131). -/
def execMacInit (arg : Byte) (inp : List Byte) (s : State) : Host.Outcome State Fault Refusal :=
  let kc := canonKey inp
  s.guarded [argZero arg]
    ({ s with macKey := memWrite keyWiped 0 kc, hs := absorb (xorEach ipad kc) initSession, hmode := .mac }.respond [])

/-- `MAC_UPDATE` (R132). -/
def execMacUpdate (arg : Byte) (inp : List Byte) (s : State) : Host.Outcome State Fault Refusal :=
  s.guarded [argZero arg, modeIs .mac s]
    ({ s with hs := absorb inp s.hs }.respond [])

/-- `MAC_FINAL` (R133). -/
def execMacFinal (outlen : Byte) (inp : List Byte) (s : State) : Host.Outcome State Fault Refusal :=
  let tag := macTag s
  s.guarded [outlenMax outlen, lenIs 0 inp, modeIs .mac s] (tag.2.respond (tag.1.take outlen.toNat))

/-- The byte differences of a tag and an expected tag, OR-ed together (R134). -/
def tagDifference (t e : List Byte) : Byte :=
  (List.zipWith (· ^^^ ·) t e).foldl (· ||| ·) 0

/-- `MAC_VERIFY` (R134): the session closes whether or not the tags agree. -/
def execMacVerify (outlen : Byte) (inp : List Byte) (s : State) : Host.Outcome State Fault Refusal :=
  let tag := macTag s
  s.guarded [outlenMin outlen, outlenMax outlen, lenIs outlen.toNat inp, modeIs .mac s]
    (tag.2.respond (if tagDifference (tag.1.take outlen.toNat) inp = 0 then [0x01] else [0x00]))

end Sys2Proof.Machine
end

