-- ==== Sys2Proof/Machine/GeneratorUnit.lean ====
section
/-! DEFINITION. The procedures of the pseudorandom generator (44_prg.md R175 to R178, R181): `Fill`, `Rand`, `Uniform`,
and what a seed and a stir do to `GS`. -/

namespace Sys2Proof.Machine

/-- How a procedure on the generator ends: with a value, or by `raise`; in both cases with the generator as it then is,
because `Fill` may already have taken bytes when it raises (60_exceptions.md R227). -/
inductive Served (α : Type) where
  | done (a : α) (g : Generator)
  | raised (e : Status) (g : Generator)
  deriving DecidableEq, Repr

/-- The same end with the value changed by `f`. -/
def Served.map {α β : Type} (f : α → β) : Served α → Served β
  | .done a g => .done (f a) g
  | .raised e g => .raised e g

/-- The refill at the head of the loop of `Fill`: a used-up buffer is filled with the next block (R175). -/
def refill (g : Generator) : Except Status Generator :=
  if g.off.val = 64 then
    match produceBlock g.c with
    | .error e => .error e
    | .ok (ks, c) => .ok { c := c, buf := memWrite g.buf 0 ks, off := 0 }
  else .ok g

/-- `GS.buf[GS.off..GS.off+j-1]`, zeroed in place as it is read, with the offset advanced; `j` is at most what the buffer
still holds (R175). -/
def takeBuffered (j : Nat) (g : Generator) : List Byte × Generator :=
  (memRead g.buf g.off.val j,
    { g with buf := memWrite g.buf g.off.val (zeros j), off := Fin.ofNat 65 (g.off.val + j) })

/-- The loop of `Fill`, `out` being the bytes copied so far. The first argument bounds the turns: every turn takes at
least one byte, so `k` turns are enough for `k` bytes (`fillLoop_fuel` in Laws, log entry 9). -/
def fillLoop : Nat → Nat → List Byte → Generator → Served (List Byte)
  | 0, _, out, g => .done out g
  | turns + 1, k, out, g =>
    if k = 0 then .done out g
    else
      match refill g with
      | .error e => .raised e g
      | .ok g =>
        let j := min k (64 - g.off.val)
        let taken := takeBuffered j g
        fillLoop turns (k - j) (out ++ taken.1) taken.2

/-- `Fill(k)` (R175). -/
def fill (k : Nat) (g : Generator) : Served (List Byte) := fillLoop k k [] g

/-- `Rand(W)` (R176). -/
def rand (w : Nat) (g : Generator) : Served Nat := (fill (w / 8) g).map fromLE

/-- How many bytes the generator can still serve: what the buffer holds, and 64 for each block before exhaustion
(R159, R175). It bounds the draws of `Uniform`. -/
def Generator.bytesLeft (g : Generator) : Nat :=
  (64 - g.off.val) + if g.c.x then 0 else 64 * (2 ^ 96 - g.c.counter)

/-- The rejection loop of `Uniform` with the threshold `t` (R181). The first argument bounds the draws: every draw takes
at least one byte of a finite stream, so the bound is never what ends the loop (log entry 9). -/
def drawLoop (w ub t : Nat) : Nat → Generator → Served Nat
  | 0, g => .raised .eExhausted g
  | draws + 1, g =>
    match rand w g with
    | .raised e g => .raised e g
    | .done r g => if t ≤ r then .done (r % ub) g else drawLoop w ub t draws g

/-- `Uniform(W, ub)` (R181). -/
def uniform (w ub : Nat) (g : Generator) : Served Nat :=
  if ub ≤ 1 then .done 0 g
  else drawLoop w ub ((2 ^ w - ub) % ub) (g.bytesLeft + 1) g

/-- The generator after `PRG_SEED`: key and nonce from the first 40 bytes of the digest, the first block in the buffer,
nothing consumed (R177). -/
def seedGenerator (inp : List Byte) (g : Generator) : Except Status Generator :=
  let d := sha inp
  let c := nonceSetup (keySetup g.c (d.take 32)) ((d.drop 32).take 8)
  match produceBlock c with
  | .error e => .error e
  | .ok (ks, c) => .ok { c := c, buf := memWrite g.buf 0 ks, off := 0 }

/-- The generator after `PRG_STIR`: the first 40 bytes of the digest XORed, little-endian, into the key words 4 to 11
and the nonce words 14 and 15, and nothing else changed (R178). -/
def stirGenerator (inp : List Byte) (g : Generator) : Generator :=
  let d := sha inp
  let word := fun k => fromLE32 ((d.drop (4 * k)).take 4)
  let s := Vector.ofFn fun i : Fin 16 =>
    if 4 ≤ i.val ∧ i.val < 12 then g.c.s[i] ^^^ word (i.val - 4)
    else if 14 ≤ i.val then g.c.s[i] ^^^ word (i.val - 6)
    else g.c.s[i]
  { g with c := { g.c with s := s } }

end Sys2Proof.Machine
end

