-- ==== Sys2Proof/Machine/Prg.lean ====
section
/-! DEFINITION. The meanings of the generator commands (44_prg.md R177 to R182). -/

namespace Sys2Proof.Machine

/-- A command that has run a procedure on `GS` ends: with its bytes, or by raising in the state the procedure left
(60_exceptions.md R227). -/
def State.serve (s : State) : Served (List Byte) → State
  | .done out g => { s with gs := g }.respond out
  | .raised e g => { s with gs := g }.raise e

/-- `PRG_SEED` (R177). -/
def execPrgSeed (arg : Byte) (inp : List Byte) (s : State) : Host.Outcome State Fault Refusal :=
  s.guarded [argZero arg]
    (match seedGenerator inp s.gs with
     | .error e => s.raise e
     | .ok g => { s with gs := g, gsd := true }.respond [])

/-- `PRG_STIR` (R178). -/
def execPrgStir (arg : Byte) (inp : List Byte) (s : State) : Host.Outcome State Fault Refusal :=
  s.guarded [argZero arg, seeded s] ({ s with gs := stirGenerator inp s.gs }.respond [])

/-- `PRG_FILL` (R179). -/
def execPrgFill (arg : Byte) (len : BitVec 16) (s : State) : Host.Outcome State Fault Refusal :=
  s.guarded [argZero arg, seeded s] (s.serve (fill len.toNat s.gs))

/-- The accessor of width `w`: `LE_w(Rand(w))` (R180). -/
def randCommand (w : Nat) (inp : List Byte) (s : State) : Host.Outcome State Fault Refusal :=
  s.guarded [lenIs 0 inp, seeded s] (s.serve ((rand w s.gs).map (leBytes (w / 8))))

/-- `PRG_RAND8` (R180). -/
def execPrgRand8 (inp : List Byte) (s : State) : Host.Outcome State Fault Refusal := randCommand 8 inp s

/-- `PRG_RAND16` (R180). -/
def execPrgRand16 (inp : List Byte) (s : State) : Host.Outcome State Fault Refusal := randCommand 16 inp s

/-- `PRG_RAND32` (R180). -/
def execPrgRand32 (inp : List Byte) (s : State) : Host.Outcome State Fault Refusal := randCommand 32 inp s

/-- `PRG_RAND64` (R180). -/
def execPrgRand64 (inp : List Byte) (s : State) : Host.Outcome State Fault Refusal := randCommand 64 inp s

/-- The bounded draw of width `w`: `LE_w(Uniform(w, FromLE(In)))` (R182). -/
def uniformCommand (w : Nat) (inp : List Byte) (s : State) : Host.Outcome State Fault Refusal :=
  s.guarded [lenIs (w / 8) inp, seeded s] (s.serve ((uniform w (fromLE inp) s.gs).map (leBytes (w / 8))))

/-- `PRG_UNIFORM8` (R182). -/
def execPrgUniform8 (inp : List Byte) (s : State) : Host.Outcome State Fault Refusal := uniformCommand 8 inp s

/-- `PRG_UNIFORM16` (R182). -/
def execPrgUniform16 (inp : List Byte) (s : State) : Host.Outcome State Fault Refusal := uniformCommand 16 inp s

/-- `PRG_UNIFORM32` (R182). -/
def execPrgUniform32 (inp : List Byte) (s : State) : Host.Outcome State Fault Refusal := uniformCommand 32 inp s

/-- `PRG_UNIFORM64` (R182). -/
def execPrgUniform64 (inp : List Byte) (s : State) : Host.Outcome State Fault Refusal := uniformCommand 64 inp s

end Sys2Proof.Machine
end

