-- ==== Sys2Proof/Machine/System.lean ====
section
/-! DEFINITION. The meanings of the system commands (45_system.md R210, R211). -/

namespace Sys2Proof.Machine

/-- `SYS_RESET` (R210): the reset state of R40; the queues of the ports are the host's and stay. -/
def execSysReset (arg : Byte) (inp : List Byte) (s : State) : Host.Outcome State Fault Refusal :=
  s.guarded [argZero arg, lenIs 0 inp] (s.clear.respond [])

/-- `SYS_STATUS` (R211): the register before the command, little-endian. -/
def execSysStatus (arg : Byte) (inp : List Byte) (s : State) : Host.Outcome State Fault Refusal :=
  s.guarded [argZero arg, lenIs 0 inp] (s.respond (le32 s.statusReg))

end Sys2Proof.Machine
end

