-- ==== Sys2Proof/Machine/Dispatch.lean ====
section
/-! DEFINITION. One arm per command (30_encoding.md R81). -/

namespace Sys2Proof.Machine

def exec (i : Instr) (s : State) : Host.Outcome State Fault Refusal :=
  match i with
  | .sysReset arg inp => Sys2Proof.Machine.execSysReset arg inp s
  | .sysStatus arg inp => Sys2Proof.Machine.execSysStatus arg inp s
  | .hashInit arg inp => Sys2Proof.Machine.execHashInit arg inp s
  | .hashUpdate arg inp => Sys2Proof.Machine.execHashUpdate arg inp s
  | .hashFinal outlen inp => Sys2Proof.Machine.execHashFinal outlen inp s
  | .hashOneshot outlen inp => Sys2Proof.Machine.execHashOneshot outlen inp s
  | .macInit arg inp => Sys2Proof.Machine.execMacInit arg inp s
  | .macUpdate arg inp => Sys2Proof.Machine.execMacUpdate arg inp s
  | .macFinal outlen inp => Sys2Proof.Machine.execMacFinal outlen inp s
  | .macVerify outlen inp => Sys2Proof.Machine.execMacVerify outlen inp s
  | .ciphKey arg inp => Sys2Proof.Machine.execCiphKey arg inp s
  | .ciphNonce arg inp => Sys2Proof.Machine.execCiphNonce arg inp s
  | .ciphBlock arg inp => Sys2Proof.Machine.execCiphBlock arg inp s
  | .prgSeed arg inp => Sys2Proof.Machine.execPrgSeed arg inp s
  | .prgStir arg inp => Sys2Proof.Machine.execPrgStir arg inp s
  | .prgFill arg len => Sys2Proof.Machine.execPrgFill arg len s
  | .prgRand8 inp => Sys2Proof.Machine.execPrgRand8 inp s
  | .prgRand16 inp => Sys2Proof.Machine.execPrgRand16 inp s
  | .prgRand32 inp => Sys2Proof.Machine.execPrgRand32 inp s
  | .prgRand64 inp => Sys2Proof.Machine.execPrgRand64 inp s
  | .prgUniform8 inp => Sys2Proof.Machine.execPrgUniform8 inp s
  | .prgUniform16 inp => Sys2Proof.Machine.execPrgUniform16 inp s
  | .prgUniform32 inp => Sys2Proof.Machine.execPrgUniform32 inp s
  | .prgUniform64 inp => Sys2Proof.Machine.execPrgUniform64 inp s

end Sys2Proof.Machine
end

