-- ==== Sys2Proof/Machine/Step.lean ====
section
/-! DEFINITION. One step of the engine: it takes what stands at its ports (20_memory.md R51, R52) and performs it
atomically (00_scope.md R7). With nothing at the ports nothing changes (R7, 70_reset_and_hazards.md R251). -/

namespace Sys2Proof.Machine

/-- One step. An undefined opcode and a reserved `WSEL` are commands that end with `E_ILLEGAL`, their payload consumed
(30_encoding.md R82, R83); a frame whose payload the host did not supply is the one refusal (R52, log entry 6). -/
def step (s : State) : Host.Outcome State Fault Refusal :=
  match s.fetch with
  | .idle => .next s
  | .reset s' => .next s'.hardwareReset
  | .frame cw inp s' =>
    match decode cw inp with
    | .ok i => exec i s'
    | .error .payloadLength => .refused .shortPayload
    | .error _ => .next (s'.raise .eIllegal)

/-- `s` with the frame whose bits are `w` at the head of the ports, so that the next step takes and runs exactly it: the
command word on `CMD` and its payload on `DIN` (log entry 4). -/
def State.withFetchWord (s : State) (nbits w : Nat) : State :=
  let f := tableFrame nbits w
  { s with cmd := .command f.1 :: s.cmd, din := f.2 ++ s.din }

end Sys2Proof.Machine
end

