-- ==== Sys2Proof/Safety.lean ====
section
/-! DEFINITION. The terms the statements use: what the machine keeps at every command boundary (10_state.md R26 to R33),
which state each command needs (60_exceptions.md R225, R226), how many bytes it answers (30_encoding.md R80), what a
sequence of commands and a run of steps do, and specification functions that say a result without the procedures that compute it. -/

namespace Sys2Proof

/-- The state the hash, MAC and cipher commands need is missing: the cases of R225. -/
def Instr.outOfSequence (i : Instr) (s : Machine.State) : Prop :=
  match i with
  | .hashUpdate _ _ => s.hmode ≠ .hash
  | .hashFinal _ _ => s.hmode ≠ .hash
  | .macUpdate _ _ => s.hmode ≠ .mac
  | .macFinal _ _ => s.hmode ≠ .mac
  | .macVerify _ _ => s.hmode ≠ .mac
  | .ciphBlock _ _ => s.ck = false ∨ s.cn = false
  | _ => False

/-- A command that consumes or stirs the generator finds it unseeded: the cases of R226. -/
def Instr.unseeded (i : Instr) (s : Machine.State) : Prop :=
  match i with
  | .prgStir _ _ => s.gsd = false
  | .prgFill _ _ => s.gsd = false
  | .prgRand8 _ => s.gsd = false
  | .prgRand16 _ => s.gsd = false
  | .prgRand32 _ => s.gsd = false
  | .prgRand64 _ => s.gsd = false
  | .prgUniform8 _ => s.gsd = false
  | .prgUniform16 _ => s.gsd = false
  | .prgUniform32 _ => s.gsd = false
  | .prgUniform64 _ => s.gsd = false
  | _ => False

/-- `out_len` on `OK` (the last column of R80). -/
def Instr.outLen : Instr → Nat
  | .sysReset _ _ => 0
  | .sysStatus _ _ => 4
  | .hashInit _ _ => 0
  | .hashUpdate _ _ => 0
  | .hashFinal outlen _ => outlen.toNat
  | .hashOneshot outlen _ => outlen.toNat
  | .macInit _ _ => 0
  | .macUpdate _ _ => 0
  | .macFinal outlen _ => outlen.toNat
  | .macVerify _ _ => 1
  | .ciphKey _ _ => 0
  | .ciphNonce _ _ => 0
  | .ciphBlock _ _ => 64
  | .prgSeed _ _ => 0
  | .prgStir _ _ => 0
  | .prgFill _ len => len.toNat
  | .prgRand8 _ => 1
  | .prgRand16 _ => 2
  | .prgRand32 _ => 4
  | .prgRand64 _ => 8
  | .prgUniform8 _ => 1
  | .prgUniform16 _ => 2
  | .prgUniform32 _ => 4
  | .prgUniform64 _ => 8

end Sys2Proof

namespace Sys2Proof.Machine

/-- What holds at every command boundary, in the order of R26 to R33. -/
structure State.Inv (s : State) : Prop where
  /-- R26: outside a MAC session the key register is zero. -/
  keyOnlyInMacSession : s.hmode ≠ .mac → s.macKey = keyWiped
  /-- R27 (b), the zero-tail invariant. -/
  zeroTail : ∀ i : Fin 128, s.hs.n ≤ i → s.hs.buf[i] = 0
  /-- R27 (c): only whole blocks are counted. -/
  wholeBlocks : s.hs.bits.toNat % 1024 = 0
  /-- R27 (d): an idle session is wiped. -/
  idleWiped : s.hmode = .idle → s.hs = HashSession.wiped
  /-- R28: a keyed context holds the four constants. -/
  constantsLoaded : s.ck = true → ∀ i : Fin 4, s.cs.s[i.val] = cipherConstants[i]
  /-- R33, last sentence: an unseeded generator is zero. -/
  unseededZero : s.gsd = false → s.gs = Generator.wiped
  /-- R33 (b): what has been handed out is zero. -/
  servedZeroed : s.gsd = true → ∀ i : Fin 64, i.val < s.gs.off.val → s.gs.buf[i] = 0
  /-- R28: a seeded generator holds the four constants. -/
  generatorConstants : s.gsd = true → ∀ i : Fin 4, s.gs.c.s[i.val] = cipherConstants[i]

/-- The next step answers a command: one stands at `CMD`, and the reset input is not asserted before it. -/
def State.responds (s : State) : Bool :=
  match s.cmd with
  | .command _ :: _ => true
  | _ => false

/-- The machine after `n` steps. -/
def runSteps : Nat → State → Host.Outcome State Fault Refusal
  | 0, s => .next s
  | n + 1, s =>
    match step s with
    | .next s' => runSteps n s'
    | .fault r => .fault r
    | .refused r => .refused r

/-- Every response given in the first `n` steps is `OK`, and none of these steps is refused (R232). -/
def State.everyResponseOk : Nat → State → Bool
  | 0, _ => true
  | n + 1, s =>
    match step s with
    | .next s' => (!s.responds || s'.rsp == some .ok) && State.everyResponseOk n s'
    | _ => false

/-- The run of `n` steps "recorded no fault" (60_exceptions.md R232): `ERR = 0` at its end and every response `OK`. The
second half is needed because a reset within the run clears the latch. -/
def State.noErrorRecorded (n : Nat) (s : State) : Prop :=
  s.everyResponseOk n = true ∧ ∃ t, runSteps n s = .next t ∧ t.err = .ok

/-- Commands issued one after another, each on the state the one before it left (20_memory.md R62). -/
def runSeq : List Instr → State → Host.Outcome State Fault Refusal
  | [], s => .next s
  | i :: is, s =>
    match exec i s with
    | .next s' => runSeq is s'
    | .fault r => .fault r
    | .refused r => .refused r

/-- `ROTR_64(x, r)`, spelled with the shifts of 00_scope.md R11. -/
def rotr64 (x : Word64) (r : Nat) : Word64 := (x >>> r) ||| (x <<< (64 - r))

/-- `ROTL_32(x, r)`, spelled with the shifts of 00_scope.md R11. -/
def rotl32 (x : Word32) (r : Nat) : Word32 := (x <<< r) ||| (x >>> (32 - r))

/-- The primes 2, 3, 5, ..., 409, whose cube roots give the round constants (41_hash.md R103). -/
def firstPrimes : List Nat :=
  [2, 3, 5, 7, 11, 13, 17, 19, 23, 29, 31, 37, 41, 43, 47, 53, 59, 61, 67, 71,
   73, 79, 83, 89, 97, 101, 103, 107, 109, 113, 127, 131, 137, 139, 149, 151, 157, 163, 167, 173,
   179, 181, 191, 193, 197, 199, 211, 223, 227, 229, 233, 239, 241, 251, 257, 263, 269, 271, 277, 281,
   283, 293, 307, 311, 313, 317, 331, 337, 347, 349, 353, 359, 367, 373, 379, 383, 389, 397, 401, 409]

/-- A message with its padding: the byte 0x80, the least number of zero bytes that leaves 16 bytes of the last block,
eight zero bytes, and the bit length as eight big-endian bytes (41_hash.md R108, 20_memory.md R53). -/
def padMessage (m : List Byte) : List Byte :=
  m ++ [0x80] ++ zeros ((128 - (m.length + 17) % 128) % 128) ++ zeros 8 ++ be64 (BitVec.ofNat 64 (8 * m.length))

/-- The chaining value after the first `k` whole blocks of a byte string, from the initialisation constants. -/
def chainBlocks (m : List Byte) : Nat → Vector Word64 8
  | 0 => iv
  | k + 1 => compress (chainBlocks m k) (Vector.ofFn fun j : Fin 128 => m.getD (128 * k + j.val) 0)

/-- `MACfn(k, m)` (42_mac.md R135). -/
def macFn (k m : List Byte) : List Byte :=
  sha (xorEach opad (canonKey k) ++ sha (xorEach ipad (canonKey k) ++ m))

/-- The keystream of a cipher context: byte `m` is byte `m mod 64` of block number `m / 64`, whose state has the counter
field advanced that often (44_prg.md R185). -/
def keystreamByte (c : CipherCtx) (m : Nat) : Byte :=
  (block (iterate increment (m / 64) c).s).getD (m % 64) 0

/-- The bytes a generator serves, from the next one on: what the buffer still holds, then the keystream of its context
(44_prg.md R175, 10_state.md R33). -/
def streamByte (g : Generator) (m : Nat) : Byte :=
  if m < 64 - g.off.val then g.buf.toList.getD (g.off.val + m) 0
  else keystreamByte g.c (m - (64 - g.off.val))

end Sys2Proof.Machine
end

