-- ==== Sys2Proof/Certificates/Slice0/Obligations.lean ====
section
/-! DEFINITION. The statements for the provers. Each docstring names the rule of spec/ that the statement formalises. A
statement about a command gives the whole next state, so that what it does not name is unchanged: its frame. -/

open Sys2Proof Sys2Proof.Machine

/-! ## Encoding -/

/-- R75, R76, R80, R81: decoding the frame of a command gives the command back, for every command and every operand the
field `LEN` can announce. -/
def Obligations.DecodeOfEncodeIsTheCommand : Prop :=
  ∀ i : Instr, i.wellFormed → decode (encode i).1 (encode i).2 = .ok i

/-- R83 ("every bit of the word is checked"): a frame that decodes is the frame of the command it decodes to, so no bit
of a command word is ignored, and the command is well-formed. -/
def Obligations.EncodeOfDecodeIsTheFrame : Prop :=
  ∀ (cw : Word32) (inp : List Byte) (i : Instr), decode cw inp = .ok i → encode i = (cw, inp) ∧ i.wellFormed

/-- R86: the encodings printed there for fifteen commands. -/
def Obligations.PrintedWordsDecodeToTheirCommands : Prop :=
  decode 0x10000000 [] = .ok (.hashInit 0 []) ∧
  decode 0x11000003 [0x61, 0x62, 0x63] = .ok (.hashUpdate 0 [0x61, 0x62, 0x63]) ∧
  decode 0x12400000 [] = .ok (.hashFinal 64 []) ∧
  decode 0x13200003 [0x61, 0x62, 0x63] = .ok (.hashOneshot 32 [0x61, 0x62, 0x63]) ∧
  decode 0x20000002 [0x0b, 0x0b] = .ok (.macInit 0 [0x0b, 0x0b]) ∧
  decode 0x23040004 [1, 2, 3, 4] = .ok (.macVerify 4 [1, 2, 3, 4]) ∧
  decode 0x30000020 ((List.range 32).map (BitVec.ofNat 8)) = .ok (.ciphKey 0 ((List.range 32).map (BitVec.ofNat 8))) ∧
  decode 0x31000008 [0, 0, 0, 0, 0, 0, 0, 0] = .ok (.ciphNonce 0 [0, 0, 0, 0, 0, 0, 0, 0]) ∧
  decode 0x32000000 [] = .ok (.ciphBlock 0 []) ∧
  decode 0x40000004 [0x73, 0x65, 0x65, 0x64] = .ok (.prgSeed 0 [0x73, 0x65, 0x65, 0x64]) ∧
  decode 0x42000064 [] = .ok (.prgFill 0 100) ∧
  decode 0x43020000 [] = .ok (.prgRand32 []) ∧
  decode 0x44020004 [0x0d, 0, 0, 0] = .ok (.prgUniform32 [0x0d, 0, 0, 0]) ∧
  decode 0x02000000 [] = .ok (.sysStatus 0 []) ∧
  decode 0x01000000 [] = .ok (.sysReset 0 [])

/-! ## The step -/

/-- R51, R52, R62: when the next command word and its payload decode to `i`, the step is `exec i` on the state with
exactly that frame taken from the ports. -/
def Obligations.StepRunsTheDecodedCommand : Prop :=
  ∀ (s : State) (cw : Word32) (rest : List PortEvent) (inp din : List Byte) (i : Instr),
    s.cmd = .command cw :: rest → s.din = inp ++ din → decode cw inp = .ok i →
    step s = exec i { s with cmd := rest, din := din }

/-- R82, R222: a command word of an undefined opcode, and one of opcode 0x43 or 0x44 with `ARG > 3`, takes its payload
and ends with `E_ILLEGAL`; nothing changes but `ERR` and the response. -/
def Obligations.StepOfAnUndefinedWordIsIllegal : Prop :=
  ∀ (s : State) (cw : Word32) (rest : List PortEvent),
    s.cmd = .command cw :: rest → inLen cw ≤ s.din.length →
    (opcodeOf cw ∉ ([0x01, 0x02, 0x10, 0x11, 0x12, 0x13, 0x20, 0x21, 0x22, 0x23, 0x30, 0x31, 0x32, 0x40, 0x41, 0x42,
        0x43, 0x44] : List Byte)
      ∨ (opcodeOf cw = 0x43 ∨ opcodeOf cw = 0x44) ∧ 3 < (argOf cw).toNat) →
    step s = .next { s with
      cmd := rest
      din := s.din.drop (inLen cw)
      err := if s.err = .ok then .eIllegal else s.err
      rsp := some .eIllegal
      dout := [] }

/-- R7 ("with no command issued, no state changes"), R251. -/
def Obligations.StepWithNothingIssuedChangesNothing : Prop :=
  ∀ s : State, s.cmd = [] → step s = .next s

/-- R250: the reset input puts every field of R20 to its reset value. What it does to the ports is the model's choice
(log entry 5). -/
def Obligations.ResetInputRestoresTheResetState : Prop :=
  ∀ (s : State) (rest : List PortEvent), s.cmd = .reset :: rest →
    step s = .next { State.reset with cmd := rest, din := s.din }

/-- R52, U8: a frame with fewer payload bytes than its word announces is refused (log entry 6). -/
def Obligations.ShortPayloadIsRefused : Prop :=
  ∀ (s : State) (cw : Word32) (rest : List PortEvent),
    s.cmd = .command cw :: rest → s.din.length < inLen cw → step s = .refused .shortPayload

/-- R40: every bit of every field of R20 is zero after reset, hence `STATUS = 0x00000000`. -/
def Obligations.ResetStateIsAllZero : Prop :=
  (∀ i : Fin 8, State.reset.hs.h[i] = 0) ∧ (∀ i : Fin 128, State.reset.hs.buf[i] = 0) ∧ State.reset.hs.n = 0 ∧
  State.reset.hs.bits = 0 ∧ State.reset.hmode = .idle ∧ (∀ i : Fin 128, State.reset.macKey[i] = 0) ∧
  (∀ i : Fin 16, State.reset.cs.s[i] = 0) ∧ State.reset.ck = false ∧ State.reset.cn = false ∧
  State.reset.cs.x = false ∧ (∀ i : Fin 16, State.reset.gs.c.s[i] = 0) ∧ State.reset.gs.c.x = false ∧
  (∀ i : Fin 64, State.reset.gs.buf[i] = 0) ∧ State.reset.gs.off = 0 ∧ State.reset.gsd = false ∧
  State.reset.err = .ok ∧ State.reset.statusReg = 0

/-! ## Rules of the whole machine -/

/-- R26 (last sentence), R27, R33 (a), (b) and the last sentence: what holds at a command boundary holds at the next,
from every state in which it holds, whatever the host presents. -/
def Obligations.StepKeepsTheBoundaryConditions : Prop :=
  ∀ s s' : State, s.Inv → step s = .next s' → s'.Inv

/-- R26, R27, R33 at reset. -/
def Obligations.ResetMeetsTheBoundaryConditions : Prop := State.reset.Inv

/-- R220, R85, R80: every command ends, either with `OK` and exactly `out_len` bytes of output, or with an error status
and none. -/
def Obligations.EveryCommandEndsWithItsOutputOrAnError : Prop :=
  ∀ (i : Instr) (s : State), ∃ t, exec i s = .next t ∧
    (t.rsp = some .ok ∧ t.dout.length = i.outLen ∨ ∃ e, e ≠ .ok ∧ t.rsp = some e ∧ t.dout = [])

/-- R229: a command that ends with a status of 0x01 to 0x05 has changed nothing but the latch and the response. -/
def Obligations.ErrorsOtherThanExhaustionArePrecise : Prop :=
  ∀ (i : Instr) (s t : State) (e : Status), exec i s = .next t → t.rsp = some e → e ≠ .ok → e ≠ .eExhausted →
    t = { s with err := if s.err = .ok then e else s.err, rsp := some e, dout := [] }

/-- R35, R232: the latch takes the status of the first command that fails and keeps it; only a `SYS_RESET` that succeeds
clears it. -/
def Obligations.LatchKeepsTheFirstError : Prop :=
  ∀ (i : Instr) (s t : State) (e : Status), exec i s = .next t → t.rsp = some e →
    (s.err ≠ .ok → t.err = s.err ∨ (e = .ok ∧ ∃ arg inp, i = .sysReset arg inp ∧ t.err = .ok)) ∧
    (s.err = .ok → t.err = e)

/-- R232, last sentence: a run "recorded no fault" when `ERR = 0` at its end and every response is `OK`. From a state
with a clear latch the responses alone decide it. In a run with no reset, by the input or by `SYS_RESET`, the latch at the
end alone does too; with one it would not, since a reset clears the latch. -/
def Obligations.NoFaultIsRecordedWhenEveryResponseIsOk : Prop :=
  (∀ (n : Nat) (s : State), s.err = .ok → (s.noErrorRecorded n ↔ s.everyResponseOk n = true)) ∧
  (∀ (n : Nat) (s t : State), s.err = .ok → .reset ∉ s.cmd → (∀ cw, .command cw ∈ s.cmd → opcodeOf cw ≠ 0x01) →
    runSteps n s = .next t → (t.err = .ok ↔ s.noErrorRecorded n))

/-- R228, with R222 to R226: the checks are made in the order `ARG`, `OUTLEN`, `LEN`, state, and the first that fails is
the one reported; a command that fails none of them ends with `OK` or `E_EXHAUSTED`. -/
def Obligations.FirstFailingCheckIsReported : Prop :=
  ∀ (i : Instr) (s : State),
    (¬ i.argLegal → exec i s = .next (s.raise .eIllegal)) ∧
    (i.argLegal → ¬ i.outlenLegal → exec i s = .next (s.raise .eOutlen)) ∧
    (i.argLegal → i.outlenLegal → ¬ i.lenLegal → exec i s = .next (s.raise .eLen)) ∧
    (i.legal → i.outOfSequence s → exec i s = .next (s.raise .eSeq)) ∧
    (i.legal → i.unseeded s → exec i s = .next (s.raise .eUnseeded)) ∧
    (i.legal → ¬ i.outOfSequence s → ¬ i.unseeded s →
      ∃ t, exec i s = .next t ∧ (t.rsp = some .ok ∨ t.rsp = some .eExhausted))

/-- R227: who ends with `E_EXHAUSTED`. `CIPH_BLOCK` does when `CS.x = 1`, and nothing of `CS` changes. A generator
command that does has left a generator with an empty buffer and the flag set, and every byte it copied is lost. -/
def Obligations.ExhaustionIsRaisedWhereABlockIsNeeded : Prop :=
  ∀ (i : Instr) (s t : State), exec i s = .next t → t.rsp = some .eExhausted →
    ((∃ arg inp, i = .ciphBlock arg inp) ∧ s.cs.x = true ∧ t = s.raise .eExhausted) ∨
    ((∃ arg len, i = .prgFill arg len) ∨ (∃ inp, i = .prgRand8 inp) ∨ (∃ inp, i = .prgRand16 inp) ∨
        (∃ inp, i = .prgRand32 inp) ∨ (∃ inp, i = .prgRand64 inp) ∨ (∃ inp, i = .prgUniform8 inp) ∨
        (∃ inp, i = .prgUniform16 inp) ∨ (∃ inp, i = .prgUniform32 inp) ∨ (∃ inp, i = .prgUniform64 inp)) ∧
      t = { s with gs := t.gs }.raise .eExhausted ∧ t.gs.c.x = true ∧ t.gs.off.val = 64

/-- R42, R257, R252: the units are independent. The hash and MAC commands leave the cipher context and the generator as
they are, the cipher commands the session, the key register and the generator, the generator commands the session, the
key register and the cipher context; `SYS_STATUS` leaves all of them. -/
def Obligations.UnitsDoNotTouchEachOther : Prop :=
  ∀ (i : Instr) (s t : State), exec i s = .next t → i.opcode ≠ 0x01 →
    (i.opcode.extractLsb' 4 4 ≠ 1#4 → i.opcode.extractLsb' 4 4 ≠ 2#4 →
      t.hs = s.hs ∧ t.hmode = s.hmode ∧ t.macKey = s.macKey) ∧
    (i.opcode.extractLsb' 4 4 ≠ 3#4 → t.cs = s.cs ∧ t.ck = s.ck ∧ t.cn = s.cn) ∧
    (i.opcode.extractLsb' 4 4 ≠ 4#4 → t.gs = s.gs ∧ t.gsd = s.gsd)

/-- R37, R212: what the host issues next is the host's alone: no command, whatever its outcome, changes which command
words and which payload bytes come next. -/
def Obligations.NoCommandTouchesWhatTheHostIssuesNext : Prop :=
  ∀ (i : Instr) (s t : State), exec i s = .next t → t.cmd = s.cmd ∧ t.din = s.din

/-- R35, R231: no command behaves differently because of `ERR`: from two states that differ in it alone a command gives
the same response and two states that again differ in it at most. The output of `SYS_STATUS`, which shows it, is left
out. -/
def Obligations.LatchDoesNotInfluenceCommands : Prop :=
  ∀ (i : Instr) (s t : State) (e : Status), exec i s = .next t → i.opcode ≠ 0x02 →
    ∃ e', exec i { s with err := e } = .next { t with err := e' }

/-- R117: the hash commands on `HMODE`. `HASH_INIT` goes from any mode to `HASH`; `HASH_UPDATE` stays in `HASH` and
faults elsewhere; `HASH_FINAL` goes from `HASH` to `IDLE` and faults elsewhere; `HASH_ONESHOT` goes from any mode to
`IDLE`; and none of the four moves it when it ends with an error. -/
def Obligations.HashCommandsMoveTheSessionMode : Prop :=
  (∀ s : State, ∃ t, exec (.hashInit 0 []) s = .next t ∧ t.rsp = some .ok ∧ t.hmode = .hash) ∧
  (∀ (s : State) (inp : List Byte), s.hmode = .hash →
    ∃ t, exec (.hashUpdate 0 inp) s = .next t ∧ t.rsp = some .ok ∧ t.hmode = .hash) ∧
  (∀ (s : State) (inp : List Byte), s.hmode ≠ .hash → exec (.hashUpdate 0 inp) s = .next (s.raise .eSeq)) ∧
  (∀ (s : State) (outlen : Byte), outlen.toNat ≤ 64 → s.hmode = .hash →
    ∃ t, exec (.hashFinal outlen []) s = .next t ∧ t.rsp = some .ok ∧ t.hmode = .idle) ∧
  (∀ (s : State) (outlen : Byte), outlen.toNat ≤ 64 → s.hmode ≠ .hash →
    exec (.hashFinal outlen []) s = .next (s.raise .eSeq)) ∧
  (∀ (s : State) (outlen : Byte) (inp : List Byte), outlen.toNat ≤ 64 →
    ∃ t, exec (.hashOneshot outlen inp) s = .next t ∧ t.rsp = some .ok ∧ t.hmode = .idle) ∧
  (∀ (i : Instr) (s t : State), exec i s = .next t → i.opcode.extractLsb' 4 4 = 1#4 → t.rsp ≠ some .ok →
    t.hmode = s.hmode)

/-- R136: the MAC commands on `HMODE`. `MAC_INIT` goes from any mode to `MAC`; `MAC_UPDATE` stays in `MAC` and faults
elsewhere; `MAC_FINAL` and `MAC_VERIFY` go from `MAC` to `IDLE` and fault elsewhere. With R117 this is the whole
transition relation: outside the hash and MAC commands only `SYS_RESET` changes it, and that one goes to `IDLE`. -/
def Obligations.MacCommandsMoveTheSessionMode : Prop :=
  (∀ (s : State) (key : List Byte), ∃ t, exec (.macInit 0 key) s = .next t ∧ t.rsp = some .ok ∧ t.hmode = .mac) ∧
  (∀ (s : State) (inp : List Byte), s.hmode = .mac →
    ∃ t, exec (.macUpdate 0 inp) s = .next t ∧ t.rsp = some .ok ∧ t.hmode = .mac) ∧
  (∀ (s : State) (inp : List Byte), s.hmode ≠ .mac → exec (.macUpdate 0 inp) s = .next (s.raise .eSeq)) ∧
  (∀ (s : State) (outlen : Byte), outlen.toNat ≤ 64 → s.hmode = .mac →
    ∃ t, exec (.macFinal outlen []) s = .next t ∧ t.rsp = some .ok ∧ t.hmode = .idle) ∧
  (∀ (s : State) (outlen : Byte), outlen.toNat ≤ 64 → s.hmode ≠ .mac →
    exec (.macFinal outlen []) s = .next (s.raise .eSeq)) ∧
  (∀ (s : State) (outlen : Byte) (inp : List Byte), 1 ≤ outlen.toNat → outlen.toNat ≤ 64 →
    inp.length = outlen.toNat → s.hmode = .mac →
    ∃ t, exec (.macVerify outlen inp) s = .next t ∧ t.rsp = some .ok ∧ t.hmode = .idle) ∧
  (∀ (s : State) (outlen : Byte) (inp : List Byte), 1 ≤ outlen.toNat → outlen.toNat ≤ 64 →
    inp.length = outlen.toNat → s.hmode ≠ .mac → exec (.macVerify outlen inp) s = .next (s.raise .eSeq)) ∧
  (∀ s : State, ∃ t, exec (.sysReset 0 []) s = .next t ∧ t.rsp = some .ok ∧ t.hmode = .idle) ∧
  (∀ (i : Instr) (s t : State), exec i s = .next t → t.hmode ≠ s.hmode →
    t.rsp = some .ok ∧
      (i.opcode.extractLsb' 4 4 = 1#4 ∨ i.opcode.extractLsb' 4 4 = 2#4 ∨ (i.opcode = 0x01 ∧ t.hmode = .idle)))

/-- R183: `PRG_SEED` goes to Seeded from either state; no other command changes `GSD`, but for the reset of `SYS_RESET`;
the consuming commands and the stir need Seeded. An exhausted generator stays Seeded. -/
def Obligations.GeneratorIsSeededBySeedAlone : Prop :=
  ∀ (i : Instr) (s t : State), exec i s = .next t →
    (i.opcode = 0x40 → t.rsp = some .ok → t.gsd = true) ∧
    (i.opcode ≠ 0x40 → t.gsd = s.gsd ∨ (i.opcode = 0x01 ∧ t.gsd = false)) ∧
    (i.opcode.extractLsb' 4 4 = 4#4 → i.opcode ≠ 0x40 → s.gsd = false → t.rsp ≠ some .ok ∧ t.gs = s.gs) ∧
    (t.rsp = some .eExhausted → t.gsd = s.gsd)

/-! ## System commands -/

/-- R210: the end state is the reset state; the ports keep what the host has still to issue. -/
def Obligations.SysResetRestoresTheResetState : Prop :=
  ∀ s : State, exec (.sysReset 0 []) s =
    .next { State.reset with cmd := s.cmd, din := s.din, rsp := some .ok, dout := [] }

/-- R36, R211, R56: the output of `SYS_STATUS` byte by byte: `ERR`; then, from bit 7 down, a zero, `GX`, `GSD`, `CX`,
`CN`, `CK` and the two bits of `HMODE`; then two zero bytes. Nothing changes but the response. -/
def Obligations.SysStatusOutputsTheFlags : Prop :=
  ∀ s : State, exec (.sysStatus 0 []) s = .next { s with
    rsp := some .ok
    dout := [s.err.code,
      0#1 ++ BitVec.ofBool s.gs.c.x ++ BitVec.ofBool s.gsd ++ BitVec.ofBool s.cs.x ++ BitVec.ofBool s.cn
        ++ BitVec.ofBool s.ck ++ s.hmode.code,
      0, 0] }

/-! ## Hash -/

/-- R104: the 80 schedule words of a block. -/
def Obligations.ScheduleFollowsTheRecurrence : Prop :=
  ∀ B : Vector Byte 128, (schedule B).length = 80 ∧
    (∀ t : Nat, t < 16 → (schedule B).getD t 0 = fromBE64 (memRead B (8 * t) 8)) ∧
    (∀ t : Nat, 16 ≤ t → t < 80 → (schedule B).getD t 0 =
      ssig1 ((schedule B).getD (t - 2) 0) + (schedule B).getD (t - 7) 0 + ssig0 ((schedule B).getD (t - 15) 0)
        + (schedule B).getD (t - 16) 0)

/-- R105, with R101 and R103: `Compress` is 80 rounds and the addition of the chaining value, for every chaining value
and every block. `v t` is the eight variables after `t` rounds. The word functions are spelled with the shifts of R11, and
`K[t]` is the first 64 bits of the fractional part of the cube root of the `t`-th prime `p`: the `r` with
`r = floor(cbrt(p) * 2^64)` is a multiple of 2^64 plus `K[t]`. -/
def Obligations.CompressIsEightyRoundsAndTheAddition : Prop :=
  (∀ x y z : Word64, ch x y z = (x &&& y) ^^^ (~~~x &&& z) ∧ maj x y z = (x &&& y) ^^^ (x &&& z) ^^^ (y &&& z)) ∧
  (∀ x : Word64,
    bsig0 x = rotr64 x 28 ^^^ rotr64 x 34 ^^^ rotr64 x 39 ∧ bsig1 x = rotr64 x 14 ^^^ rotr64 x 18 ^^^ rotr64 x 41 ∧
    ssig0 x = rotr64 x 1 ^^^ rotr64 x 8 ^^^ (x >>> 7) ∧ ssig1 x = rotr64 x 19 ^^^ rotr64 x 61 ^^^ (x >>> 6)) ∧
  (roundConstants.length = 80 ∧ ∀ t : Nat, t < 80 → ∃ m : Nat,
    let r := 2 ^ 64 * m + (roundConstants.getD t 0).toNat
    r ^ 3 ≤ firstPrimes.getD t 0 * 2 ^ 192 ∧ firstPrimes.getD t 0 * 2 ^ 192 < (r + 1) ^ 3) ∧
  ∀ (H : Vector Word64 8) (B : Vector Byte 128), ∃ v : Nat → Vars,
    v 0 = { a := H[0], b := H[1], c := H[2], d := H[3], e := H[4], f := H[5], g := H[6], h := H[7] } ∧
    (∀ t : Nat, t < 80 →
      let T1 := (v t).h + bsig1 (v t).e + ch (v t).e (v t).f (v t).g + roundConstants.getD t 0 + (schedule B).getD t 0
      let T2 := bsig0 (v t).a + maj (v t).a (v t).b (v t).c
      v (t + 1) = { a := T1 + T2, b := (v t).a, c := (v t).b, d := (v t).c, e := (v t).d + T1, f := (v t).e,
                    g := (v t).f, h := (v t).g }) ∧
    compress H B = #v[H[0] + (v 80).a, H[1] + (v 80).b, H[2] + (v 80).c, H[3] + (v 80).d, H[4] + (v 80).e,
      H[5] + (v 80).f, H[6] + (v 80).g, H[7] + (v 80).h]

/-- R114, first sentence: absorbing two byte strings one after the other leaves the state that absorbing their
concatenation leaves, bit for bit. -/
def Obligations.AbsorbingInTwoPiecesIsAbsorbingTheWhole : Prop :=
  ∀ (x y : List Byte) (hs : HashSession), absorb y (absorb x hs) = absorb (x ++ y) hs

/-- R110: after `HASH_INIT` the session holds the initialisation constants and nothing else, in every mode. -/
def Obligations.HashInitOpensAFreshSession : Prop :=
  ∀ s : State, exec (.hashInit 0 []) s = .next { s with
    hs := { h := #v[0x6A09E667F3BCC908, 0xBB67AE8584CAA73B, 0x3C6EF372FE94F82B, 0xA54FF53A5F1D36F1,
                    0x510E527FADE682D1, 0x9B05688C2B3E6C1F, 0x1F83D9ABFB41BD6B, 0x5BE0CD19137E2179]
            buf := Vector.replicate 128 0, n := 0, bits := 0 }
    hmode := .hash
    macKey := Vector.replicate 128 0
    rsp := some .ok
    dout := [] }

/-- R107: what `Absorb` does to the session. A byte string that does not fill the buffer stands behind the bytes already
there and nothing is compressed; one that exactly fills it has the full block compressed, counted and the buffer cleared.
With R114 (AbsorbingInTwoPiecesIsAbsorbingTheWhole) this determines every case. -/
def Obligations.AbsorbFillsTheBufferThenCompresses : Prop :=
  ∀ (data : List Byte) (hs : HashSession),
    (hs.n.val + data.length < 128 → absorb data hs = { hs with
      buf := Vector.ofFn fun j : Fin 128 =>
        if hs.n.val ≤ j.val ∧ j.val < hs.n.val + data.length then data.getD (j.val - hs.n.val) 0 else hs.buf[j]
      n := Fin.ofNat 128 (hs.n.val + data.length) }) ∧
    (hs.n.val + data.length = 128 → absorb data hs = {
      h := compress hs.h
        (Vector.ofFn fun j : Fin 128 => if hs.n.val ≤ j.val then data.getD (j.val - hs.n.val) 0 else hs.buf[j])
      buf := Vector.replicate 128 0
      n := 0
      bits := hs.bits + 1024 })

/-- R111: `HASH_UPDATE` in a plain session absorbs its payload, of any length, and changes nothing else. -/
def Obligations.HashUpdateAbsorbsItsPayload : Prop :=
  ∀ (s : State) (inp : List Byte), s.hmode = .hash →
    exec (.hashUpdate 0 inp) s = .next { s with hs := absorb inp s.hs, rsp := some .ok, dout := [] }

/-- R112, R115: `HASH_FINAL` of a plain session outputs the first `OUTLEN` bytes of the digest and wipes the session. -/
def Obligations.HashFinalOutputsAPrefixOfTheDigest : Prop :=
  ∀ (s : State) (outlen : Byte), s.hmode = .hash → outlen.toNat ≤ 64 →
    exec (.hashFinal outlen []) s = .next { s with
      hs := HashSession.wiped
      hmode := .idle
      rsp := some .ok
      dout := (finish s.hs).1.take outlen.toNat }

/-- R113: `HASH_ONESHOT` is `HASH_INIT`, `HASH_UPDATE`, `HASH_FINAL` as one command: it completes from every state, with
the first `OUTLEN` bytes of the digest, no open session and no key, and the three commands one after another reach the
same state. -/
def Obligations.HashOneshotIsInitUpdateFinal : Prop :=
  ∀ (s : State) (outlen : Byte) (inp : List Byte), outlen.toNat ≤ 64 →
    let t : State := { s with
      hs := HashSession.wiped
      hmode := .idle
      macKey := keyWiped
      rsp := some .ok
      dout := (sha inp).take outlen.toNat }
    exec (.hashOneshot outlen inp) s = .next t ∧
    runSeq [.hashInit 0 [], .hashUpdate 0 inp, .hashFinal outlen []] s = .next t

/-- R114, R110 to R112: a plain session answers with the digest of the concatenation of its payloads, however the message
was cut, and leaves the session wiped. -/
def Obligations.HashSessionAnswersTheDigestOfTheMessage : Prop :=
  ∀ (s : State) (chunks : List (List Byte)) (outlen : Byte), outlen.toNat ≤ 64 →
    runSeq (.hashInit 0 [] :: (chunks.map (Instr.hashUpdate 0) ++ [.hashFinal outlen []])) s = .next { s with
      hs := HashSession.wiped
      hmode := .idle
      macKey := keyWiped
      rsp := some .ok
      dout := (sha chunks.flatten).take outlen.toNat }

/-- R107, R108, R109: `SHA` is the Merkle-Damgård construction: the blocks of the padded message are compressed in order
from the initialisation constants, and the last chaining value is output big-endian. It holds of every message, the
length field being the bit length modulo 2^64 (R116); that it covers messages of 2^61 bytes or more, where U3 tells a model
to refuse, is the model's choice (DESIGN CHOICE, log entry 7). -/
def Obligations.ShaIsTheMerkleDamgardHashOfThePaddedMessage : Prop :=
  ∀ m : List Byte, (padMessage m).length % 128 = 0 ∧
    sha m = (chainBlocks (padMessage m) ((padMessage m).length / 128)).toList.flatMap be64

/-! ## Keyed hash -/

/-- R130, R137 (last sentence): the canonical key of a key of at most 128 bytes is the key followed by zero bytes up to
128, that of a longer key is its digest followed by 64 zero bytes, and it is 128 bytes either way. So keys of at most 128
bytes that differ by trailing zero bytes share one, and a longer key shares that of its digest. -/
def Obligations.CanonicalKeyIsOneBlock : Prop :=
  (∀ k : List Byte, k.length ≤ 128 → canonKey k = k ++ List.replicate (128 - k.length) 0) ∧
  (∀ k : List Byte, 128 < k.length → canonKey k = sha k ++ List.replicate 64 0) ∧
  (∀ k : List Byte, (canonKey k).length = 128) ∧
  (∀ (k : List Byte) (m : Nat), k.length + m ≤ 128 → canonKey (k ++ List.replicate m 0) = canonKey k) ∧
  (∀ k : List Byte, 128 < k.length → canonKey k = canonKey (sha k))

/-- R131: after `MAC_INIT` the key register holds the canonical key and the session has absorbed exactly one block, the
canonical key XOR the inner pad. -/
def Obligations.MacInitAbsorbsTheInnerPad : Prop :=
  ∀ (s : State) (k : List Byte),
    exec (.macInit 0 k) s = .next { s with
      hs := { h := compress iv (Vector.ofFn fun j : Fin 128 => (canonKey k).getD j.val 0 ^^^ 0x36)
              buf := Vector.replicate 128 0, n := 0, bits := 1024 }
      hmode := .mac
      macKey := Vector.ofFn fun j : Fin 128 => (canonKey k).getD j.val 0
      rsp := some .ok
      dout := [] }

/-- R132: `MAC_UPDATE` in a keyed session absorbs its payload, of any length, and changes nothing else. -/
def Obligations.MacUpdateAbsorbsItsPayload : Prop :=
  ∀ (s : State) (inp : List Byte), s.hmode = .mac →
    exec (.macUpdate 0 inp) s = .next { s with hs := absorb inp s.hs, rsp := some .ok, dout := [] }

/-- R133: `MAC_FINAL` of a keyed session outputs the first `OUTLEN` bytes of the outer digest, over the key XOR the outer
pad and the full inner digest, and wipes session and key. -/
def Obligations.MacFinalOutputsThePrefixOfTheOuterDigest : Prop :=
  ∀ (s : State) (outlen : Byte), s.hmode = .mac → outlen.toNat ≤ 64 →
    exec (.macFinal outlen []) s = .next { s with
      hs := HashSession.wiped
      hmode := .idle
      macKey := keyWiped
      rsp := some .ok
      dout := (sha (s.macKey.toList.map (· ^^^ 0x5C) ++ (finish s.hs).1)).take outlen.toNat }

/-- R134: `MAC_VERIFY` answers `01` exactly when the expected tag equals the first `OUTLEN` bytes of the tag, `00`
otherwise, and closes the session either way. -/
def Obligations.MacVerifyAnswersEqualityOfTheTags : Prop :=
  ∀ (s : State) (outlen : Byte) (inp : List Byte), s.hmode = .mac → 1 ≤ outlen.toNat → outlen.toNat ≤ 64 →
    inp.length = outlen.toNat →
    exec (.macVerify outlen inp) s = .next { s with
      hs := HashSession.wiped
      hmode := .idle
      macKey := keyWiped
      rsp := some .ok
      dout := if (sha (s.macKey.toList.map (· ^^^ 0x5C) ++ (finish s.hs).1)).take outlen.toNat = inp then [0x01]
        else [0x00] }

/-- R135: a keyed session answers with `MACfn` of the key and the concatenation of its payloads. -/
def Obligations.MacSessionAnswersTheClosedForm : Prop :=
  ∀ (s : State) (k : List Byte) (chunks : List (List Byte)) (outlen : Byte), outlen.toNat ≤ 64 →
    runSeq (.macInit 0 k :: (chunks.map (Instr.macUpdate 0) ++ [.macFinal outlen []])) s = .next { s with
      hs := HashSession.wiped
      hmode := .idle
      macKey := keyWiped
      rsp := some .ok
      dout := (macFn k chunks.flatten).take outlen.toNat }

/-! ## Cipher -/

/-- R152, R153, R154: `Block`, for every state. `QR` is the four add, exclusive-or and rotate lines of R152, the rotation
spelled with the shifts of R11. A double-round replaces the four words of each index set of R153 by `QR` of them, the
four columns first, then the four diagonals. Output bytes `4i` to `4i+3` are the sum of word
`i` after ten double-rounds and word `i` of the state, least significant byte first. The corner case of R154: the block of
the all-zero state is 64 zero bytes. -/
def Obligations.BlockIsTenDoubleRoundsAndTheFeedForward : Prop :=
  (∀ a b c d : Word32,
    let a₁ := a + b
    let d₁ := rotl32 (d ^^^ a₁) 16
    let c₁ := c + d₁
    let b₁ := rotl32 (b ^^^ c₁) 12
    let a₂ := a₁ + b₁
    let d₂ := rotl32 (d₁ ^^^ a₂) 8
    let c₂ := c₁ + d₂
    let b₂ := rotl32 (b₁ ^^^ c₂) 7
    qr a b c d = (a₂, b₂, c₂, d₂)) ∧
  (∀ x : Vector Word32 16, doubleRound x =
    ([(0, 4, 8, 12), (1, 5, 9, 13), (2, 6, 10, 14), (3, 7, 11, 15),
      (0, 5, 10, 15), (1, 6, 11, 12), (2, 7, 8, 13), (3, 4, 9, 14)] : List (Fin 16 × Fin 16 × Fin 16 × Fin 16)).foldl
      (fun y q =>
        let r := qr y[q.1] y[q.2.1] y[q.2.2.1] y[q.2.2.2]
        (((y.set q.1 r.1).set q.2.1 r.2.1).set q.2.2.1 r.2.2.1).set q.2.2.2 r.2.2.2) x) ∧
  (∀ s : Vector Word32 16, (block s).length = 64 ∧ ∀ i : Fin 16,
    let y := (doubleRound^[10] s)[i] + s[i]
    ((block s).drop (4 * i.val)).take 4 =
      [y.extractLsb' 0 8, y.extractLsb' 8 8, y.extractLsb' 16 8, y.extractLsb' 24 8]) ∧
  block (Vector.replicate 16 0) = List.replicate 64 0

/-- R156: the 96-bit value goes up by one modulo 2^96, the flag is set when it wraps, and every other word stays, word 15
among them. -/
def Obligations.IncrementCountsNinetySixBits : Prop :=
  ∀ c : CipherCtx,
    (increment c).counter = (c.counter + 1) % 2 ^ 96 ∧
    (increment c).x = (c.x || decide (c.counter + 1 = 2 ^ 96)) ∧
    ∀ i : Fin 16, i.val < 12 ∨ i.val = 15 → (increment c).s[i] = c.s[i]

/-- R165, R30: within one keying the counter field goes up by one from block to block, no two produced blocks use the
same 16 state words, and the flag that stops production is set exactly when the field has wrapped. Here `m` blocks are
produced one after another from a context that is not exhausted before any of them. -/
def Obligations.CounterNeverRepeatsWithinAKeying : Prop :=
  ∀ (c : CipherCtx) (m : Nat), 1 ≤ m → (∀ j, j < m → (iterate increment j c).x = false) →
    (∀ j, j < m → (iterate increment j c).counter = c.counter + j) ∧
    (∀ j k, j < k → k < m → (iterate increment j c).s ≠ (iterate increment k c).s) ∧
    ((iterate increment m c).x = true ↔ c.counter + m = 2 ^ 96)

/-- R160, R155, R54: after `CIPH_KEY` the words 0 to 3 are the constants, word `4+i` holds the key bytes `4i` to `4i+3`,
the first of them least significant, and words 12 to 15 and the flag `x` are unchanged. -/
def Obligations.CiphKeyLoadsConstantsAndKey : Prop :=
  ∀ (s : State) (key : List Byte), key.length = 32 →
    ∃ t, exec (.ciphKey 0 key) s = .next t ∧
      t = { s with cs := { s.cs with s := t.cs.s }, ck := true, rsp := some .ok, dout := [] } ∧
      t.cs.s[0] = 0x61707865 ∧ t.cs.s[1] = 0x3320646E ∧ t.cs.s[2] = 0x79622D32 ∧ t.cs.s[3] = 0x6B206574 ∧
      (∀ i : Fin 16, 4 ≤ i.val → i.val < 12 → t.cs.s[i] =
        key.getD (4 * (i.val - 4) + 3) 0 ++ key.getD (4 * (i.val - 4) + 2) 0 ++ key.getD (4 * (i.val - 4) + 1) 0
          ++ key.getD (4 * (i.val - 4)) 0) ∧
      ∀ i : Fin 16, 12 ≤ i.val → t.cs.s[i] = s.cs.s[i]

/-- R161, R158, R54: after `CIPH_NONCE` the counter words are zero, words 14 and 15 hold the nonce, least significant
byte first, the flag `x` is clear, and words 0 to 11 are unchanged. -/
def Obligations.CiphNonceLoadsTheNonce : Prop :=
  ∀ (s : State) (nonce : List Byte), nonce.length = 8 →
    ∃ t, exec (.ciphNonce 0 nonce) s = .next t ∧
      t = { s with cs := { s := t.cs.s, x := false }, cn := true, rsp := some .ok, dout := [] } ∧
      t.cs.s[12] = 0 ∧ t.cs.s[13] = 0 ∧
      t.cs.s[14] = nonce.getD 3 0 ++ nonce.getD 2 0 ++ nonce.getD 1 0 ++ nonce.getD 0 0 ∧
      t.cs.s[15] = nonce.getD 7 0 ++ nonce.getD 6 0 ++ nonce.getD 5 0 ++ nonce.getD 4 0 ∧
      ∀ i : Fin 16, i.val < 12 → t.cs.s[i] = s.cs.s[i]

/-- R162, R159: `CIPH_BLOCK` on a keyed context that is not exhausted outputs the block of the state before the
increment. -/
def Obligations.CiphBlockOutputsTheKeystreamBlock : Prop :=
  ∀ s : State, s.ck = true → s.cn = true → s.cs.x = false →
    ∃ t, exec (.ciphBlock 0 []) s = .next t ∧
      t = { s with cs := t.cs, rsp := some .ok, dout := block s.cs.s } ∧
      t.cs.counter = (s.cs.counter + 1) % 2 ^ 96 ∧
      (∀ i : Fin 16, i.val < 12 ∨ i.val = 15 → t.cs.s[i] = s.cs.s[i]) ∧
      t.cs.x = decide (s.cs.counter + 1 = 2 ^ 96)

/-! ## Generator -/

/-- R177, R53, R54: after `PRG_SEED` the generator is keyed by the first 32 bytes of the digest, its nonce is the next 8,
its buffer is the first block, its counter is 1, and nothing has been consumed. -/
def Obligations.PrgSeedLoadsTheDigest : Prop :=
  ∀ (s : State) (inp : List Byte),
    ∃ t, exec (.prgSeed 0 inp) s = .next t ∧
      t = { s with gs := t.gs, gsd := true, rsp := some .ok, dout := [] } ∧
      t.gs.off = 0 ∧ t.gs.c.x = false ∧ t.gs.c.s[12] = 1 ∧ t.gs.c.s[13] = 0 ∧
      t.gs.c.s[0] = 0x61707865 ∧ t.gs.c.s[1] = 0x3320646E ∧ t.gs.c.s[2] = 0x79622D32 ∧ t.gs.c.s[3] = 0x6B206574 ∧
      (∀ i : Fin 16, 4 ≤ i.val → i.val < 12 →
        t.gs.c.s[i] = fromLE32 (((sha inp).drop (4 * (i.val - 4))).take 4)) ∧
      t.gs.c.s[14] = fromLE32 (((sha inp).drop 32).take 4) ∧ t.gs.c.s[15] = fromLE32 (((sha inp).drop 36).take 4) ∧
      t.gs.buf.toList = block (t.gs.c.s.set 12 0)

/-- R178: `PRG_STIR` on a seeded generator XORs the first 40 digest bytes into the key words and the nonce words and
changes nothing else. -/
def Obligations.PrgStirXorsTheDigest : Prop :=
  ∀ (s : State) (inp : List Byte), s.gsd = true →
    ∃ t, exec (.prgStir 0 inp) s = .next t ∧
      t = { s with gs := { s.gs with c := { s.gs.c with s := t.gs.c.s } }, rsp := some .ok, dout := [] } ∧
      (∀ i : Fin 16, i.val < 4 ∨ i.val = 12 ∨ i.val = 13 → t.gs.c.s[i] = s.gs.c.s[i]) ∧
      (∀ i : Fin 16, 4 ≤ i.val → i.val < 12 →
        t.gs.c.s[i] = s.gs.c.s[i] ^^^ fromLE32 (((sha inp).drop (4 * (i.val - 4))).take 4)) ∧
      t.gs.c.s[14] = s.gs.c.s[14] ^^^ fromLE32 (((sha inp).drop 32).take 4) ∧
      t.gs.c.s[15] = s.gs.c.s[15] ^^^ fromLE32 (((sha inp).drop 36).take 4)

/-- R178, corner case: stirring twice with the same bytes restores the generator. -/
def Obligations.StirringTwiceRestoresTheGenerator : Prop :=
  ∀ (inp : List Byte) (g : Generator), stirGenerator inp (stirGenerator inp g) = g

/-- R258: a stir does not change what the buffer still serves. -/
def Obligations.BufferedBytesOutliveAStir : Prop :=
  ∀ (inp : List Byte) (g g' : Generator) (k : Nat) (out : List Byte), k ≤ 64 - g.off.val → fill k g = .done out g' →
    fill k (stirGenerator inp g) = .done out (stirGenerator inp g')

/-- R175, R179, R184: `PRG_FILL` on a seeded generator whose stream still has `LEN` bytes outputs the next `LEN` bytes of
that stream; afterwards the stream is the old one from there on, `LEN` bytes shorter; what has been handed out of the
buffer is zero if it was so before; and key, nonce high word and constants are unchanged. -/
def Obligations.PrgFillServesTheStreamInOrder : Prop :=
  ∀ (s : State) (len : BitVec 16), s.gsd = true → len.toNat ≤ s.gs.bytesLeft →
    ∃ t, exec (.prgFill 0 len) s = .next t ∧
      t = { s with gs := t.gs, rsp := some .ok, dout := t.dout } ∧
      t.dout = (List.range len.toNat).map (streamByte s.gs) ∧
      t.gs.bytesLeft = s.gs.bytesLeft - len.toNat ∧
      (∀ m : Nat, m < t.gs.bytesLeft → streamByte t.gs m = streamByte s.gs (len.toNat + m)) ∧
      ((∀ i : Fin 64, i.val < s.gs.off.val → s.gs.buf[i] = 0) → ∀ i : Fin 64, i.val < t.gs.off.val → t.gs.buf[i] = 0) ∧
      ∀ i : Fin 16, i.val < 12 ∨ i.val = 15 → t.gs.c.s[i] = s.gs.c.s[i]

/-- R227: a block request on an exhausted context fails. `CIPH_BLOCK` changes nothing but the latch and the response.
`PRG_FILL` beyond the end of the stream, and a uniform command all of whose draws up to the end of the stream are below the
threshold of R181 (none at all, if not one draw is left), lose what the buffer still held, and a generator whose handed-out
bytes were zero is left with an all-zero buffer. The accessors `PRG_RANDn` are fills (PrgRandIsAFillOfItsWidth). -/
def Obligations.RequestsBeyondTheStreamAreExhausted : Prop :=
  (∀ s : State, s.ck = true → s.cn = true → s.cs.x = true →
    exec (.ciphBlock 0 []) s = .next { s with
      err := if s.err = .ok then .eExhausted else s.err, rsp := some .eExhausted, dout := [] }) ∧
  (∀ (s : State) (len : BitVec 16), s.gsd = true → s.gs.bytesLeft < len.toNat →
    ∃ g, exec (.prgFill 0 len) s = .next { s with
        gs := g, err := if s.err = .ok then .eExhausted else s.err, rsp := some .eExhausted, dout := [] } ∧
      g.c.x = true ∧ g.off.val = 64 ∧
      ((∀ i : Fin 64, i.val < s.gs.off.val → s.gs.buf[i] = 0) → g.buf = Vector.replicate 64 0)) ∧
  (∀ (s : State) (inp : List Byte) (n : Nat) (i : Instr),
    (i = .prgUniform8 inp ∧ n = 1 ∨ i = .prgUniform16 inp ∧ n = 2 ∨ i = .prgUniform32 inp ∧ n = 4 ∨
      i = .prgUniform64 inp ∧ n = 8) →
    inp.length = n → s.gsd = true → 2 ≤ fromLE inp →
    (∀ j : Nat, n * (j + 1) ≤ s.gs.bytesLeft →
      fromLE ((List.range n).map fun m => streamByte s.gs (n * j + m)) < (2 ^ (8 * n) - fromLE inp) % fromLE inp) →
    ∃ g, exec i s = .next { s with
        gs := g, err := if s.err = .ok then .eExhausted else s.err, rsp := some .eExhausted, dout := [] } ∧
      g.c.x = true ∧ g.off.val = 64 ∧
      ((∀ i : Fin 64, i.val < s.gs.off.val → s.gs.buf[i] = 0) → g.buf = Vector.replicate 64 0))

/-- R179, concatenation law: two fills in a row give the bytes and the state of one fill of the sum, also when one of
them raises. -/
def Obligations.FillsConcatenate : Prop :=
  ∀ (a b : Nat) (g : Generator), fill (a + b) g =
    match fill a g with
    | .raised e g' => .raised e g'
    | .done x g' =>
      match fill b g' with
      | .raised e g'' => .raised e g''
      | .done y g'' => .done (x ++ y) g''

/-- R185: with no stir and no exhaustion the bytes served after a seed are the keystream of the keyed context from
counter 0, whatever the requests: here for every number of bytes that the seeded generator can serve before exhaustion,
the carries of the counter included. -/
def Obligations.SeededGeneratorServesTheKeystream : Prop :=
  ∀ (inp : List Byte) (g g' : Generator) (k : Nat), seedGenerator inp g = .ok g' → k ≤ g'.bytesLeft →
    ∃ g'', fill k g' = .done ((List.range k).map (keystreamByte
      (nonceSetup (keySetup g.c ((sha inp).take 32)) (((sha inp).drop 32).take 8)))) g''

/-- R180: the output and the state change of `PRG_RANDn` are those of `PRG_FILL` with `LEN = n/8`; they complete on a
seeded generator whose stream has that many bytes left. -/
def Obligations.PrgRandIsAFillOfItsWidth : Prop :=
  ∀ s : State,
    (exec (.prgRand8 []) s = exec (.prgFill 0 1) s ∧ exec (.prgRand16 []) s = exec (.prgFill 0 2) s ∧
      exec (.prgRand32 []) s = exec (.prgFill 0 4) s ∧ exec (.prgRand64 []) s = exec (.prgFill 0 8) s) ∧
    (s.gsd = true →
      (1 ≤ s.gs.bytesLeft → ∃ t, exec (.prgRand8 []) s = .next t ∧ t.rsp = some .ok ∧ t.dout.length = 1) ∧
      (2 ≤ s.gs.bytesLeft → ∃ t, exec (.prgRand16 []) s = .next t ∧ t.rsp = some .ok ∧ t.dout.length = 2) ∧
      (4 ≤ s.gs.bytesLeft → ∃ t, exec (.prgRand32 []) s = .next t ∧ t.rsp = some .ok ∧ t.dout.length = 4) ∧
      (8 ≤ s.gs.bytesLeft → ∃ t, exec (.prgRand64 []) s = .next t ∧ t.rsp = some .ok ∧ t.dout.length = 8))

/-- R181, R182: with a bound of 0 or 1 the uniform commands on a seeded generator output zero and consume nothing. -/
def Obligations.UniformOfATrivialBoundConsumesNothing : Prop :=
  ∀ (s : State) (inp : List Byte), s.gsd = true → fromLE inp ≤ 1 →
    (inp.length = 1 → exec (.prgUniform8 inp) s = .next { s with rsp := some .ok, dout := List.replicate 1 0 }) ∧
    (inp.length = 2 → exec (.prgUniform16 inp) s = .next { s with rsp := some .ok, dout := List.replicate 2 0 }) ∧
    (inp.length = 4 → exec (.prgUniform32 inp) s = .next { s with rsp := some .ok, dout := List.replicate 4 0 }) ∧
    (inp.length = 8 → exec (.prgUniform64 inp) s = .next { s with rsp := some .ok, dout := List.replicate 8 0 })

/-- R181, R182: with a bound `ub` of 2 or more the uniform commands draw values of their width from the stream until one
reaches the threshold `(2^W - ub) mod ub` and output it modulo the bound: `d` draws are rejected, the next is accepted,
and exactly the bytes of these draws are consumed. That no draw is accepted before the stream ends is the last clause of
RequestsBeyondTheStreamAreExhausted. -/
def Obligations.UniformOutputsTheFirstAcceptedDraw : Prop :=
  ∀ (s : State) (inp : List Byte) (d n : Nat) (i : Instr),
    (i = .prgUniform8 inp ∧ n = 1 ∨ i = .prgUniform16 inp ∧ n = 2 ∨ i = .prgUniform32 inp ∧ n = 4 ∨
      i = .prgUniform64 inp ∧ n = 8) →
    inp.length = n → s.gsd = true → 2 ≤ fromLE inp → n * (d + 1) ≤ s.gs.bytesLeft →
    let draw := fun j => fromLE ((List.range n).map fun m => streamByte s.gs (n * j + m))
    let t := (2 ^ (8 * n) - fromLE inp) % fromLE inp
    (∀ j, j < d → draw j < t) → t ≤ draw d →
    ∃ u g', exec i s = .next u ∧ fill (n * (d + 1)) s.gs = .done ((List.range (n * (d + 1))).map (streamByte s.gs)) g' ∧
      u = { s with gs := g', rsp := some .ok, dout := leBytes n (draw d % fromLE inp) }

/-- R181 ("It always ends"): the bound on the number of draws is never what ends the loop: one draw more would give the
same end, from every generator and for every width of the hardware. -/
def Obligations.DrawLoopEndsByItself : Prop :=
  ∀ (w ub t more : Nat) (g : Generator), w = 8 ∨ w = 16 ∨ w = 32 ∨ w = 64 →
    drawLoop w ub t (g.bytesLeft + 1 + more) g = drawLoop w ub t (g.bytesLeft + 1) g

/-- R182: the value output is below the bound, or 0 for a bound of 0. -/
def Obligations.UniformIsBelowItsBound : Prop :=
  ∀ (w ub v : Nat) (g g' : Generator), uniform w ub g = .done v g' → v < max ub 1
end

