-- ==== Sys2Proof/Laws/Bytes.lean ====
section
/-! SUPPORT. Lengths and inverses of the byte conversions, and the two laws of an access to a byte array: what a write
leaves at each place, and how many bytes a read gives. -/

namespace Sys2Proof.Machine

@[simp] theorem zeros_length (n : Nat) : (zeros n).length = n := by simp [zeros]

@[simp] theorem leBytes_length (n v : Nat) : (leBytes n v).length = n := by
  induction n generalizing v with
  | zero => rfl
  | succ n ih => simp [leBytes, ih]

@[simp] theorem le32_length (w : Word32) : (le32 w).length = 4 := leBytes_length _ _

@[simp] theorem be64_length (w : Word64) : (be64 w).length = 8 := by simp [be64]

theorem fromLE_lt (b : List Byte) : fromLE b < 256 ^ b.length := by
  induction b with
  | nil => simp [fromLE]
  | cons x xs ih =>
    have := x.isLt
    simp only [fromLE, List.length_cons, Nat.pow_succ]
    omega

theorem fromLE_leBytes (n v : Nat) : fromLE (leBytes n v) = v % 256 ^ n := by
  induction n generalizing v with
  | zero => simp [leBytes, fromLE, Nat.mod_one]
  | succ n ih =>
    have hpow : 256 ^ (n + 1) = 256 * 256 ^ n := by rw [Nat.pow_succ, Nat.mul_comm]
    rw [leBytes, fromLE, ih, BitVec.toNat_ofNat, hpow, Nat.mod_mul]

theorem leBytes_fromLE (b : List Byte) : leBytes b.length (fromLE b) = b := by
  induction b with
  | nil => rfl
  | cons x xs ih =>
    have hx := x.isLt
    have hdiv : (x.toNat + 256 * fromLE xs) / 256 = fromLE xs := by omega
    have hhead : BitVec.ofNat 8 (x.toNat + 256 * fromLE xs) = x := by
      apply BitVec.eq_of_toNat_eq
      simp only [BitVec.toNat_ofNat]
      omega
    simp only [List.length_cons, leBytes, fromLE, hdiv, ih, hhead]

@[simp] theorem memRead_length {N : Nat} (B : Vector Byte N) (i n : Nat) :
    (memRead B i n).length = min n (N - i) := by simp [memRead]

@[simp] theorem memWrite_getElem {N : Nat} (B : Vector Byte N) (i : Nat) (v : List Byte) (j : Nat) (h : j < N) :
    (memWrite B i v)[j] = if i ≤ j ∧ j < i + v.length then v.getD (j - i) 0 else B[j] := by
  simp [memWrite]

/-- A write outside which nothing changes. -/
theorem memWrite_getElem_outside {N : Nat} (B : Vector Byte N) (i : Nat) (v : List Byte) (j : Nat) (h : j < N)
    (hj : j < i ∨ i + v.length ≤ j) : (memWrite B i v)[j] = B[j] := by
  rw [memWrite_getElem, if_neg (by omega)]

/-- A write of as many bytes as the array has is the array of these bytes. -/
theorem memWrite_all {N : Nat} (B : Vector Byte N) (v : List Byte) (h : v.length = N) :
    (memWrite B 0 v).toList = v := by
  apply List.ext_getElem
  · simp [h]
  · intro j h₁ h₂
    have hj : j < N := by simpa using h₁
    simp [h, hj]

end Sys2Proof.Machine
end

