-- ==== Sys2Proof/Laws/HashUnit.lean ====
section
/-! SUPPORT. The shared operations of the hash unit, said once: one byte absorbed, and what `Finish` gives. -/

namespace Sys2Proof.Machine

@[simp] theorem absorb_nil (hs : HashSession) : absorb [] hs = hs := rfl

@[simp] theorem absorb_cons (b : Byte) (bs : List Byte) (hs : HashSession) :
    absorb (b :: bs) hs = absorb bs (absorbByte hs b) := rfl

/-- A byte that does not fill the buffer is stored and counted. -/
theorem absorbByte_of_room {hs : HashSession} (b : Byte) (h : hs.n.val + 1 < 128) :
    absorbByte hs b = { hs with buf := hs.buf.set hs.n b, n := ⟨hs.n.val + 1, h⟩ } := by
  simp [absorbByte, h]

/-- A byte that fills the buffer has the block compressed, counted and cleared. -/
theorem absorbByte_of_full {hs : HashSession} (b : Byte) (h : ¬ hs.n.val + 1 < 128) :
    absorbByte hs b =
      { h := compress hs.h (hs.buf.set hs.n b), buf := Vector.replicate 128 0, n := 0, bits := hs.bits + 1024 } := by
  simp [absorbByte, h]

theorem flatMap_length_const {α : Type} (f : α → List Byte) (c : Nat) (h : ∀ a, (f a).length = c) (l : List α) :
    (l.flatMap f).length = l.length * c := by
  induction l with
  | nil => simp
  | cons a l ih => simp [h, ih, Nat.add_mul, Nat.add_comm]

@[simp] theorem digestBytes_length (h : Vector Word64 8) : (digestBytes h).length = 64 := by
  simp [digestBytes, flatMap_length_const be64 8 be64_length]

@[simp] theorem finish_digest_length (hs : HashSession) : (finish hs).1.length = 64 := by
  simp [finish]

@[simp] theorem finish_session (hs : HashSession) : (finish hs).2 = HashSession.wiped := rfl

@[simp] theorem sha_length (m : List Byte) : (sha m).length = 64 := by simp [sha]

end Sys2Proof.Machine
end

