-- ==== Sys2Proof/Laws/CipherUnit.lean ====
section
/-! SUPPORT. The shared operations of the cipher unit, said once: the length of a block, the ways `Increment` goes, when a
block is produced. -/

namespace Sys2Proof.Machine

@[simp] theorem block_length (s : Vector Word32 16) : (block s).length = 64 := by
  simp [block, flatMap_length_const le32 4 le32_length]

@[simp] theorem iterate_zero {α : Type} (f : α → α) (a : α) : iterate f 0 a = a := rfl

theorem iterate_succ {α : Type} (f : α → α) (m : Nat) (a : α) : iterate f (m + 1) a = iterate f m (f a) := rfl

/-- One more application can stand outside as well as inside. -/
theorem iterate_succ_outside {α : Type} (f : α → α) (m : Nat) (a : α) : iterate f (m + 1) a = f (iterate f m a) := by
  induction m generalizing a with
  | zero => rfl
  | succ m ih => rw [iterate_succ, ih, ← iterate_succ]

/-- An exhausted context produces nothing. -/
theorem produceBlock_of_exhausted {c : CipherCtx} (h : c.x = true) : produceBlock c = .error .eExhausted := by
  simp [produceBlock, h]

/-- A context that is not exhausted produces the block of its state and counts. -/
theorem produceBlock_of_ready {c : CipherCtx} (h : c.x = false) : produceBlock c = .ok (block c.s, increment c) := by
  simp [produceBlock, h]

/-- `ProduceBlock` raises nothing but `E_EXHAUSTED`, and only when the flag is set. -/
theorem produceBlock_error {c : CipherCtx} {e : Status} (h : produceBlock c = .error e) :
    c.x = true ∧ e = .eExhausted := by
  unfold produceBlock at h
  split at h
  · next hx => exact ⟨hx, by simpa using h.symm⟩
  · simp at h

/-- A block that is produced is that of the state before the increment. -/
theorem produceBlock_ok {c c' : CipherCtx} {ks : List Byte} (h : produceBlock c = .ok (ks, c')) :
    c.x = false ∧ ks = block c.s ∧ c' = increment c := by
  unfold produceBlock at h
  split at h
  · simp at h
  · next hx =>
    simp only [Except.ok.injEq, Prod.mk.injEq] at h
    exact ⟨by simpa using hx, h.1.symm, h.2.symm⟩

@[simp] theorem nonceSetup_x (c : CipherCtx) (nonce : List Byte) : (nonceSetup c nonce).x = false := rfl

@[simp] theorem keySetup_x (c : CipherCtx) (key : List Byte) : (keySetup c key).x = c.x := rfl

end Sys2Proof.Machine
end

