-- ==== Sys2Proof/Laws/Decode.lean ====
section
/-! SUPPORT. The fields of a command word that is put together from them. -/

namespace Sys2Proof

@[simp] theorem opcodeOf_commandWord (opcode arg : Byte) (len : BitVec 16) :
    opcodeOf (commandWord opcode arg len) = opcode := by
  apply BitVec.eq_of_getLsbD_eq
  intro i hi
  interval_cases i <;> simp [opcodeOf, commandWord]

@[simp] theorem argOf_commandWord (opcode arg : Byte) (len : BitVec 16) :
    argOf (commandWord opcode arg len) = arg := by
  apply BitVec.eq_of_getLsbD_eq
  intro i hi
  interval_cases i <;> simp [argOf, commandWord]

@[simp] theorem lenOf_commandWord (opcode arg : Byte) (len : BitVec 16) :
    lenOf (commandWord opcode arg len) = len := by
  apply BitVec.eq_of_getLsbD_eq
  intro i hi
  interval_cases i <;> simp [lenOf, commandWord]

/-- A payload of another length than the word announces is refused. -/
theorem decode_wrong_length {cw : Word32} {inp : List Byte} (h : inp.length ≠ inLen cw) :
    decode cw inp = .error .payloadLength := by simp [decode, h]

/-- A payload of the length the word announces is decoded by the fields of the word. -/
theorem decode_right_length {cw : Word32} {inp : List Byte} (h : inp.length = inLen cw) :
    decode cw inp = decodeFields (opcodeOf cw) (argOf cw) (lenOf cw) inp := by simp [decode, h]

end Sys2Proof
end

