-- ==== Sys2Proof/Laws/GeneratorUnit.lean ====
section
/-! SUPPORT. The shared operations of the generator, said once: the refill, one turn of `Fill`, that its bound on the
turns is enough, and how many bytes it serves. -/

namespace Sys2Proof.Machine

@[simp] theorem Served.map_done {α β : Type} (f : α → β) (a : α) (g : Generator) :
    (Served.done a g).map f = .done (f a) g := rfl

@[simp] theorem Served.map_raised {α β : Type} (f : α → β) (e : Status) (g : Generator) :
    (Served.raised e g : Served α).map f = .raised e g := rfl

/-- The refill: a buffer with bytes left stays; a used-up one is filled, unless the context is exhausted. -/
theorem refill_cases (g : Generator) :
    (g.off.val ≠ 64 ∧ refill g = .ok g) ∨
    (g.off.val = 64 ∧ g.c.x = true ∧ refill g = .error .eExhausted) ∨
    (g.off.val = 64 ∧ g.c.x = false ∧
      refill g = .ok { c := increment g.c, buf := memWrite g.buf 0 (block g.c.s), off := 0 }) := by
  by_cases h : g.off.val = 64
  · cases hx : g.c.x
    · exact .inr (.inr ⟨h, rfl, by simp [refill, h, produceBlock_of_ready hx]⟩)
    · exact .inr (.inl ⟨h, rfl, by simp [refill, h, produceBlock_of_exhausted hx]⟩)
  · exact .inl ⟨h, by simp [refill, h]⟩

/-- After a refill at least one byte is buffered. -/
theorem refill_off_lt {g g' : Generator} (h : refill g = .ok g') : g'.off.val < 64 := by
  have hlt := g.off.isLt
  rcases refill_cases g with ⟨hn, hr⟩ | ⟨-, -, hr⟩ | ⟨-, -, hr⟩
  · rw [hr] at h; cases h; omega
  · rw [hr] at h; cases h
  · rw [hr] at h; cases h; simp

/-- A refill raises nothing but `E_EXHAUSTED`, and only with an empty buffer and the flag set. -/
theorem refill_error {g : Generator} {e : Status} (h : refill g = .error e) :
    e = .eExhausted ∧ g.off.val = 64 ∧ g.c.x = true := by
  rcases refill_cases g with ⟨-, hr⟩ | ⟨h₁, h₂, hr⟩ | ⟨-, -, hr⟩ <;> rw [hr] at h <;> cases h
  exact ⟨rfl, h₁, h₂⟩

@[simp] theorem fillLoop_zero_bytes (turns : Nat) (out : List Byte) (g : Generator) :
    fillLoop turns 0 out g = .done out g := by
  cases turns <;> simp [fillLoop]

/-- One turn of the loop for a request that is not empty. -/
theorem fillLoop_turn {turns k : Nat} (out : List Byte) (g : Generator) (hk : k ≠ 0) :
    fillLoop (turns + 1) k out g =
      match refill g with
      | .error e => .raised e g
      | .ok g' =>
        fillLoop turns (k - min k (64 - g'.off.val)) (out ++ (takeBuffered (min k (64 - g'.off.val)) g').1)
          (takeBuffered (min k (64 - g'.off.val)) g').2 := by
  rw [fillLoop]
  exact (if_neg hk).trans (by cases refill g <;> rfl)

/-- Turns beyond the number of bytes requested are never used. -/
theorem fillLoop_fuel (turns k : Nat) (out : List Byte) (g : Generator) (h : k ≤ turns) :
    fillLoop turns k out g = fillLoop k k out g := by
  induction k using Nat.strongRecOn generalizing turns out g with
  | ind k ih =>
    rcases Nat.eq_zero_or_pos k with rfl | hk
    · simp
    · obtain ⟨t, rfl⟩ := Nat.exists_eq_succ_of_ne_zero (by omega : turns ≠ 0)
      obtain ⟨k', rfl⟩ := Nat.exists_eq_succ_of_ne_zero (by omega : k ≠ 0)
      rw [Nat.succ_eq_add_one, Nat.succ_eq_add_one, fillLoop_turn _ _ (by omega), fillLoop_turn _ _ (by omega)]
      cases hr : refill g with
      | error e => rfl
      | ok g' =>
        have hoff := refill_off_lt hr
        dsimp only
        rw [ih _ (by omega) t _ _ (by omega), ih _ (by omega) k' _ _ (by omega)]

@[simp] theorem fill_zero (g : Generator) : fill 0 g = .done [] g := rfl

@[simp] theorem takeBuffered_length (j : Nat) (g : Generator) (h : j ≤ 64 - g.off.val) :
    (takeBuffered j g).1.length = j := by
  simp only [takeBuffered, memRead_length]
  omega

/-- A loop of `Fill` that ends without raising has added exactly the bytes requested. -/
theorem fillLoop_done_length {turns k : Nat} {out out' : List Byte} {g g' : Generator} (h : k ≤ turns)
    (hd : fillLoop turns k out g = .done out' g') : out'.length = out.length + k := by
  induction turns generalizing k out g with
  | zero =>
    obtain rfl : k = 0 := by omega
    simp only [fillLoop_zero_bytes, Served.done.injEq] at hd
    simp [hd.1]
  | succ t ih =>
    by_cases hk : k = 0
    · subst hk
      simp only [fillLoop_zero_bytes, Served.done.injEq] at hd
      simp [hd.1]
    · rw [fillLoop_turn _ _ hk] at hd
      cases hr : refill g with
      | error e => simp [hr] at hd
      | ok g₁ =>
        have hoff := refill_off_lt hr
        simp only [hr] at hd
        have := ih (by omega) hd
        rw [this, List.length_append, takeBuffered_length _ _ (Nat.min_le_right _ _)]
        omega

/-- A fill that does not raise serves the number of bytes requested. -/
theorem fill_done_length {k : Nat} {out : List Byte} {g g' : Generator} (h : fill k g = .done out g') :
    out.length = k := by
  simpa using fillLoop_done_length (Nat.le_refl k) h

/-- A loop of `Fill` raises nothing but `E_EXHAUSTED`, and leaves an empty buffer and the flag set. -/
theorem fillLoop_raised {turns k : Nat} {out : List Byte} {e : Status} {g g' : Generator}
    (h : fillLoop turns k out g = .raised e g') : e = .eExhausted ∧ g'.off.val = 64 ∧ g'.c.x = true := by
  induction turns generalizing k out g with
  | zero => simp [fillLoop] at h
  | succ t ih =>
    by_cases hk : k = 0
    · simp [hk] at h
    · rw [fillLoop_turn _ _ hk] at h
      cases hr : refill g with
      | error e' =>
        simp only [hr, Served.raised.injEq] at h
        obtain ⟨rfl, rfl⟩ := h
        exact refill_error hr
      | ok g₁ =>
        simp only [hr] at h
        exact ih h

/-- A seed never raises: the nonce setup has just cleared the flag (44_prg.md R177). -/
theorem seedGenerator_ok (inp : List Byte) (g : Generator) :
    let c := nonceSetup (keySetup g.c ((sha inp).take 32)) (((sha inp).drop 32).take 8)
    seedGenerator inp g = .ok { c := increment c, buf := memWrite g.buf 0 (block c.s), off := 0 } := by
  simp only [seedGenerator, produceBlock_of_ready (nonceSetup_x _ _)]

end Sys2Proof.Machine
end

