-- ==== Sys2Proof/Laws/MacUnit.lean ====
section
/-! SUPPORT. What `MacTag` leaves, and what it answers with. -/

namespace Sys2Proof.Machine

@[simp] theorem xorEach_length (c : Byte) (x : List Byte) : (xorEach c x).length = x.length := by simp [xorEach]

/-- `MacTag` closes the session: registers and key wiped, no session open, everything else as it was. -/
@[simp] theorem macTag_state (s : State) :
    (macTag s).2 = { s with hs := HashSession.wiped, macKey := keyWiped, hmode := .idle } := by
  simp only [macTag, finish_session]

@[simp] theorem macTag_length (s : State) : (macTag s).1.length = 64 := by simp [macTag]

/-- The tag is the outer digest over the key XOR the outer pad and the inner digest. -/
theorem macTag_tag (s : State) :
    (macTag s).1 = (finish (absorb (finish s.hs).1 (absorb (xorEach opad s.macKey.toList) initSession))).1 := by
  simp only [macTag]

end Sys2Proof.Machine
end

