-- ==== Sys2Proof/Laws/State.lean ====
section
/-! SUPPORT. One lemma for each field and each update of the state, true by unfolding the update once; no later proof
unfolds one. -/

namespace Sys2Proof.Machine

/-! ### `State.raise` -/

@[simp] theorem State.raise_hs (s : State) (e : Status) : (s.raise e).hs = s.hs := rfl
@[simp] theorem State.raise_hmode (s : State) (e : Status) : (s.raise e).hmode = s.hmode := rfl
@[simp] theorem State.raise_macKey (s : State) (e : Status) : (s.raise e).macKey = s.macKey := rfl
@[simp] theorem State.raise_cs (s : State) (e : Status) : (s.raise e).cs = s.cs := rfl
@[simp] theorem State.raise_ck (s : State) (e : Status) : (s.raise e).ck = s.ck := rfl
@[simp] theorem State.raise_cn (s : State) (e : Status) : (s.raise e).cn = s.cn := rfl
@[simp] theorem State.raise_gs (s : State) (e : Status) : (s.raise e).gs = s.gs := rfl
@[simp] theorem State.raise_gsd (s : State) (e : Status) : (s.raise e).gsd = s.gsd := rfl
@[simp] theorem State.raise_err (s : State) (e : Status) : (s.raise e).err = if s.err = .ok then e else s.err := rfl
@[simp] theorem State.raise_cmd (s : State) (e : Status) : (s.raise e).cmd = s.cmd := rfl
@[simp] theorem State.raise_din (s : State) (e : Status) : (s.raise e).din = s.din := rfl
@[simp] theorem State.raise_rsp (s : State) (e : Status) : (s.raise e).rsp = some e := rfl
@[simp] theorem State.raise_dout (s : State) (e : Status) : (s.raise e).dout = [] := rfl

/-! ### `State.respond` -/

@[simp] theorem State.respond_hs (s : State) (out : List Byte) : (s.respond out).hs = s.hs := rfl
@[simp] theorem State.respond_hmode (s : State) (out : List Byte) : (s.respond out).hmode = s.hmode := rfl
@[simp] theorem State.respond_macKey (s : State) (out : List Byte) : (s.respond out).macKey = s.macKey := rfl
@[simp] theorem State.respond_cs (s : State) (out : List Byte) : (s.respond out).cs = s.cs := rfl
@[simp] theorem State.respond_ck (s : State) (out : List Byte) : (s.respond out).ck = s.ck := rfl
@[simp] theorem State.respond_cn (s : State) (out : List Byte) : (s.respond out).cn = s.cn := rfl
@[simp] theorem State.respond_gs (s : State) (out : List Byte) : (s.respond out).gs = s.gs := rfl
@[simp] theorem State.respond_gsd (s : State) (out : List Byte) : (s.respond out).gsd = s.gsd := rfl
@[simp] theorem State.respond_err (s : State) (out : List Byte) : (s.respond out).err = s.err := rfl
@[simp] theorem State.respond_cmd (s : State) (out : List Byte) : (s.respond out).cmd = s.cmd := rfl
@[simp] theorem State.respond_din (s : State) (out : List Byte) : (s.respond out).din = s.din := rfl
@[simp] theorem State.respond_rsp (s : State) (out : List Byte) : (s.respond out).rsp = some .ok := rfl
@[simp] theorem State.respond_dout (s : State) (out : List Byte) : (s.respond out).dout = out := rfl

/-! ### `State.clear` -/

@[simp] theorem State.clear_hs (s : State) : (s.clear).hs = State.reset.hs := rfl
@[simp] theorem State.clear_hmode (s : State) : (s.clear).hmode = State.reset.hmode := rfl
@[simp] theorem State.clear_macKey (s : State) : (s.clear).macKey = State.reset.macKey := rfl
@[simp] theorem State.clear_cs (s : State) : (s.clear).cs = State.reset.cs := rfl
@[simp] theorem State.clear_ck (s : State) : (s.clear).ck = State.reset.ck := rfl
@[simp] theorem State.clear_cn (s : State) : (s.clear).cn = State.reset.cn := rfl
@[simp] theorem State.clear_gs (s : State) : (s.clear).gs = State.reset.gs := rfl
@[simp] theorem State.clear_gsd (s : State) : (s.clear).gsd = State.reset.gsd := rfl
@[simp] theorem State.clear_err (s : State) : (s.clear).err = State.reset.err := rfl
@[simp] theorem State.clear_cmd (s : State) : (s.clear).cmd = s.cmd := rfl
@[simp] theorem State.clear_din (s : State) : (s.clear).din = s.din := rfl
@[simp] theorem State.clear_rsp (s : State) : (s.clear).rsp = s.rsp := rfl
@[simp] theorem State.clear_dout (s : State) : (s.clear).dout = s.dout := rfl

/-! ### `State.hardwareReset` -/

@[simp] theorem State.hardwareReset_hs (s : State) : (s.hardwareReset).hs = State.reset.hs := rfl
@[simp] theorem State.hardwareReset_hmode (s : State) : (s.hardwareReset).hmode = State.reset.hmode := rfl
@[simp] theorem State.hardwareReset_macKey (s : State) : (s.hardwareReset).macKey = State.reset.macKey := rfl
@[simp] theorem State.hardwareReset_cs (s : State) : (s.hardwareReset).cs = State.reset.cs := rfl
@[simp] theorem State.hardwareReset_ck (s : State) : (s.hardwareReset).ck = State.reset.ck := rfl
@[simp] theorem State.hardwareReset_cn (s : State) : (s.hardwareReset).cn = State.reset.cn := rfl
@[simp] theorem State.hardwareReset_gs (s : State) : (s.hardwareReset).gs = State.reset.gs := rfl
@[simp] theorem State.hardwareReset_gsd (s : State) : (s.hardwareReset).gsd = State.reset.gsd := rfl
@[simp] theorem State.hardwareReset_err (s : State) : (s.hardwareReset).err = State.reset.err := rfl
@[simp] theorem State.hardwareReset_cmd (s : State) : (s.hardwareReset).cmd = s.cmd := rfl
@[simp] theorem State.hardwareReset_din (s : State) : (s.hardwareReset).din = s.din := rfl
@[simp] theorem State.hardwareReset_rsp (s : State) : (s.hardwareReset).rsp = none := rfl
@[simp] theorem State.hardwareReset_dout (s : State) : (s.hardwareReset).dout = [] := rfl

/-! ### `State.serve` -/

@[simp] theorem State.serve_done (s : State) (out : List Byte) (g : Generator) :
    s.serve (.done out g) = { s with gs := g }.respond out := rfl

@[simp] theorem State.serve_raised (s : State) (e : Status) (g : Generator) :
    s.serve (.raised e g) = { s with gs := g }.raise e := rfl

end Sys2Proof.Machine
end

