-- ==== Sys2Proof/Laws/Ops.lean ====
section
/-! SUPPORT. What the shared operations of the commands can do, said once: the checks, and the ports. -/

namespace Sys2Proof.Machine

@[simp] theorem firstError_nil : firstError [] = none := rfl

@[simp] theorem firstError_cons (c : Check) (cs : List Check) :
    firstError (c :: cs) = if c.1 then some c.2 else firstError cs := rfl

/-- No check holds exactly when the command runs. -/
theorem firstError_eq_none (cs : List Check) : firstError cs = none ↔ ∀ c ∈ cs, c.1 = false := by
  induction cs with
  | nil => simp
  | cons c cs ih => by_cases h : c.1 <;> simp [h, ih]

/-- The error reported is the status of one of the checks. -/
theorem firstError_mem {cs : List Check} {e : Status} (h : firstError cs = some e) : ∃ c ∈ cs, c.1 = true ∧ c.2 = e := by
  induction cs with
  | nil => simp at h
  | cons c cs ih =>
    by_cases hc : c.1
    · exact ⟨c, by simp, hc, by simpa [hc] using h⟩
    · obtain ⟨d, hd, h₁, h₂⟩ := ih (by simpa [hc] using h)
      exact ⟨d, by simp [hd], h₁, h₂⟩

/-- A checked command always has a next state: its own, or the state of the first error. -/
theorem State.guarded_cases (s : State) (cs : List Check) (done : State) :
    (firstError cs = none ∧ s.guarded cs done = .next done) ∨
    ∃ e, firstError cs = some e ∧ s.guarded cs done = .next (s.raise e) := by
  unfold State.guarded
  cases h : firstError cs with
  | none => exact .inl ⟨rfl, rfl⟩
  | some e => exact .inr ⟨e, rfl, rfl⟩

/-- When no check holds the command ends in its own state. -/
theorem State.guarded_of_none {s : State} {cs : List Check} (done : State) (h : firstError cs = none) :
    s.guarded cs done = .next done := by simp [State.guarded, h]

/-- When a check holds the command ends with the first error. -/
theorem State.guarded_of_some {s : State} {cs : List Check} {e : Status} (done : State) (h : firstError cs = some e) :
    s.guarded cs done = .next (s.raise e) := by simp [State.guarded, h]

theorem State.fetch_idle {s : State} (h : s.cmd = []) : s.fetch = .idle := by simp [State.fetch, h]

theorem State.fetch_reset {s : State} {rest : List PortEvent} (h : s.cmd = .reset :: rest) :
    s.fetch = .reset { s with cmd := rest } := by simp [State.fetch, h]

theorem State.fetch_command {s : State} {cw : Word32} {rest : List PortEvent} (h : s.cmd = .command cw :: rest) :
    s.fetch = .frame cw (s.din.take (inLen cw)) { s with cmd := rest, din := s.din.drop (inLen cw) } := by
  simp [State.fetch, h]

end Sys2Proof.Machine
end

