-- ==== Sys2Proof/Laws/PerInstr.lean ====
section
/-! SUPPORT. Facts about a command as syntax, one lemma for each constructor of `Instr`. -/

/-- The decoder reads a command back from its own fields (30_encoding.md R81). -/
def Sys2Proof.Laws.DecodesBack.Statement (i : Sys2Proof.Instr) : Prop :=
  Sys2Proof.decodeFields i.opcode i.arg i.len i.payload = .ok i

theorem Sys2Proof.Laws.DecodesBack.sysReset (arg : Sys2Proof.Byte) (inp : List Sys2Proof.Byte) :
    Sys2Proof.Laws.DecodesBack.Statement (.sysReset arg inp) := rfl

theorem Sys2Proof.Laws.DecodesBack.sysStatus (arg : Sys2Proof.Byte) (inp : List Sys2Proof.Byte) :
    Sys2Proof.Laws.DecodesBack.Statement (.sysStatus arg inp) := rfl

theorem Sys2Proof.Laws.DecodesBack.hashInit (arg : Sys2Proof.Byte) (inp : List Sys2Proof.Byte) :
    Sys2Proof.Laws.DecodesBack.Statement (.hashInit arg inp) := rfl

theorem Sys2Proof.Laws.DecodesBack.hashUpdate (arg : Sys2Proof.Byte) (inp : List Sys2Proof.Byte) :
    Sys2Proof.Laws.DecodesBack.Statement (.hashUpdate arg inp) := rfl

theorem Sys2Proof.Laws.DecodesBack.hashFinal (outlen : Sys2Proof.Byte) (inp : List Sys2Proof.Byte) :
    Sys2Proof.Laws.DecodesBack.Statement (.hashFinal outlen inp) := rfl

theorem Sys2Proof.Laws.DecodesBack.hashOneshot (outlen : Sys2Proof.Byte) (inp : List Sys2Proof.Byte) :
    Sys2Proof.Laws.DecodesBack.Statement (.hashOneshot outlen inp) := rfl

theorem Sys2Proof.Laws.DecodesBack.macInit (arg : Sys2Proof.Byte) (inp : List Sys2Proof.Byte) :
    Sys2Proof.Laws.DecodesBack.Statement (.macInit arg inp) := rfl

theorem Sys2Proof.Laws.DecodesBack.macUpdate (arg : Sys2Proof.Byte) (inp : List Sys2Proof.Byte) :
    Sys2Proof.Laws.DecodesBack.Statement (.macUpdate arg inp) := rfl

theorem Sys2Proof.Laws.DecodesBack.macFinal (outlen : Sys2Proof.Byte) (inp : List Sys2Proof.Byte) :
    Sys2Proof.Laws.DecodesBack.Statement (.macFinal outlen inp) := rfl

theorem Sys2Proof.Laws.DecodesBack.macVerify (outlen : Sys2Proof.Byte) (inp : List Sys2Proof.Byte) :
    Sys2Proof.Laws.DecodesBack.Statement (.macVerify outlen inp) := rfl

theorem Sys2Proof.Laws.DecodesBack.ciphKey (arg : Sys2Proof.Byte) (inp : List Sys2Proof.Byte) :
    Sys2Proof.Laws.DecodesBack.Statement (.ciphKey arg inp) := rfl

theorem Sys2Proof.Laws.DecodesBack.ciphNonce (arg : Sys2Proof.Byte) (inp : List Sys2Proof.Byte) :
    Sys2Proof.Laws.DecodesBack.Statement (.ciphNonce arg inp) := rfl

theorem Sys2Proof.Laws.DecodesBack.ciphBlock (arg : Sys2Proof.Byte) (inp : List Sys2Proof.Byte) :
    Sys2Proof.Laws.DecodesBack.Statement (.ciphBlock arg inp) := rfl

theorem Sys2Proof.Laws.DecodesBack.prgSeed (arg : Sys2Proof.Byte) (inp : List Sys2Proof.Byte) :
    Sys2Proof.Laws.DecodesBack.Statement (.prgSeed arg inp) := rfl

theorem Sys2Proof.Laws.DecodesBack.prgStir (arg : Sys2Proof.Byte) (inp : List Sys2Proof.Byte) :
    Sys2Proof.Laws.DecodesBack.Statement (.prgStir arg inp) := rfl

theorem Sys2Proof.Laws.DecodesBack.prgFill (arg : Sys2Proof.Byte) (len : BitVec 16) :
    Sys2Proof.Laws.DecodesBack.Statement (.prgFill arg len) := rfl

theorem Sys2Proof.Laws.DecodesBack.prgRand8 (inp : List Sys2Proof.Byte) :
    Sys2Proof.Laws.DecodesBack.Statement (.prgRand8 inp) := rfl

theorem Sys2Proof.Laws.DecodesBack.prgRand16 (inp : List Sys2Proof.Byte) :
    Sys2Proof.Laws.DecodesBack.Statement (.prgRand16 inp) := rfl

theorem Sys2Proof.Laws.DecodesBack.prgRand32 (inp : List Sys2Proof.Byte) :
    Sys2Proof.Laws.DecodesBack.Statement (.prgRand32 inp) := rfl

theorem Sys2Proof.Laws.DecodesBack.prgRand64 (inp : List Sys2Proof.Byte) :
    Sys2Proof.Laws.DecodesBack.Statement (.prgRand64 inp) := rfl

theorem Sys2Proof.Laws.DecodesBack.prgUniform8 (inp : List Sys2Proof.Byte) :
    Sys2Proof.Laws.DecodesBack.Statement (.prgUniform8 inp) := rfl

theorem Sys2Proof.Laws.DecodesBack.prgUniform16 (inp : List Sys2Proof.Byte) :
    Sys2Proof.Laws.DecodesBack.Statement (.prgUniform16 inp) := rfl

theorem Sys2Proof.Laws.DecodesBack.prgUniform32 (inp : List Sys2Proof.Byte) :
    Sys2Proof.Laws.DecodesBack.Statement (.prgUniform32 inp) := rfl

theorem Sys2Proof.Laws.DecodesBack.prgUniform64 (inp : List Sys2Proof.Byte) :
    Sys2Proof.Laws.DecodesBack.Statement (.prgUniform64 inp) := rfl
end

