-- ==== Sys2Proof/Laws/Step.lean ====
section
/-! SUPPORT. What one step can do, said once, and the runs of steps unfolded one step at a time. -/

namespace Sys2Proof.Machine

/-- Everything a step can do: idle, take the reset input, execute a command, refuse a frame that lacks payload bytes, or
end a word that is no command with `E_ILLEGAL`. -/
theorem step_cases (s : State) :
    (s.cmd = [] ∧ step s = .next s) ∨
    (∃ rest, s.cmd = .reset :: rest ∧ step s = .next { s with cmd := rest }.hardwareReset) ∨
    ∃ cw rest, s.cmd = .command cw :: rest ∧
      ((∃ i, decode cw (s.din.take (inLen cw)) = .ok i ∧
          step s = exec i { s with cmd := rest, din := s.din.drop (inLen cw) }) ∨
        (decode cw (s.din.take (inLen cw)) = .error .payloadLength ∧ step s = .refused .shortPayload) ∨
        ∃ e, e ≠ .payloadLength ∧ decode cw (s.din.take (inLen cw)) = .error e ∧
          step s = .next ({ s with cmd := rest, din := s.din.drop (inLen cw) }.raise .eIllegal)) := by
  match hc : s.cmd with
  | [] => exact .inl ⟨rfl, by simp [step, State.fetch_idle hc]⟩
  | .reset :: rest => exact .inr (.inl ⟨rest, rfl, by simp [step, State.fetch_reset hc]⟩)
  | .command cw :: rest =>
    refine .inr (.inr ⟨cw, rest, rfl, ?_⟩)
    simp only [step, State.fetch_command hc]
    match hd : decode cw (s.din.take (inLen cw)) with
    | .ok i => exact .inl ⟨i, rfl, rfl⟩
    | .error .payloadLength => exact .inr (.inl ⟨rfl, rfl⟩)
    | .error (.undefinedOpcode op) => exact .inr (.inr ⟨_, by simp, rfl, rfl⟩)
    | .error (.reservedWsel w) => exact .inr (.inr ⟨_, by simp, rfl, rfl⟩)

@[simp] theorem runSteps_zero (s : State) : runSteps 0 s = .next s := rfl

/-- A run whose first step has a next state goes on from it. -/
theorem runSteps_succ {s s' : State} (n : Nat) (h : step s = .next s') : runSteps (n + 1) s = runSteps n s' := by
  simp [runSteps, h]

@[simp] theorem everyResponseOk_zero (s : State) : s.everyResponseOk 0 = true := rfl

/-- The responses of a run: that of the first step, if it gives one, and those of the rest. -/
theorem everyResponseOk_succ {s s' : State} (n : Nat) (h : step s = .next s') :
    s.everyResponseOk (n + 1) = ((!s.responds || s'.rsp == some .ok) && s'.everyResponseOk n) := by
  simp [State.everyResponseOk, h]

end Sys2Proof.Machine
end

