-- ==== Sys2Proof/Tests/Slice0.lean ====
section
/-! SUPPORT. Small checks. The expected values of the decoding tests are written out from 30_encoding.md R76 and R81; those
of the behaviour tests are the vectors of 95_test_vectors.md and the examples of the command rules, cited at each. The last
section shows, for each statement with hypotheses, a concrete input that meets them. -/

namespace Sys2Proof.Tests

open Sys2Proof Sys2Proof.Machine

-- One theorem after another: evaluated all at once, these checks need more memory than the package may take.
set_option Elab.async false

/-! ## Helpers -/

/-- The state after a command. -/
def after (i : Instr) (s : State) : State :=
  match exec i s with
  | .next t => t
  | _ => s

/-- Whether a command has a next state with this status and this output. -/
def answers (i : Instr) (s : State) (e : Status) (out : List Byte) : Bool :=
  match exec i s with
  | .next t => decide (t.rsp = some e ∧ t.dout = out)
  | _ => false

/-- Whether the machine steps to a state in which `p` holds. -/
def stepsTo (s : State) (p : State → Bool) : Bool :=
  match step s with
  | .next t => p t
  | _ => false

theorem answers_next {i : Instr} {s : State} {e : Status} {out : List Byte} (h : answers i s e out = true) :
    ∃ t, exec i s = .next t ∧ t.rsp = some e ∧ t.dout = out := by
  unfold answers at h
  split at h
  · next t ht => exact ⟨t, ht, by simpa using h⟩
  · cases h

/-- The generator of V14 after `PRG_SEED "seed"`, as the vector prints it. -/
def genSeed : Generator where
  c := { s := #v[0x61707865, 0x3320646e, 0x79622d32, 0x6b206574, 0x73e5f27c, 0x2fa2de0c, 0x8f6e2f7c, 0x73ff26b9,
                 0x0eb26484, 0x8a5b1ac6, 0xfaf4831c, 0x30aecdce, 0x00000001, 0x00000000, 0xb7a2296f, 0x5c2d5268]
         x := false }
  buf := #v[0xc4, 0xcb, 0x60, 0x03, 0xad, 0xb6, 0x24, 0x15, 0x05, 0xfd, 0x7d, 0x26, 0x25, 0x90, 0xc9, 0xd7,
            0xdf, 0x0b, 0x7e, 0x27, 0x9d, 0xbc, 0x41, 0x9a, 0x3d, 0x81, 0xa1, 0x6c, 0x83, 0xfc, 0x66, 0xf3,
            0x08, 0x54, 0xb3, 0x8a, 0x11, 0xe6, 0xb9, 0x28, 0x08, 0xc3, 0xbf, 0x3d, 0xa9, 0x7d, 0x22, 0xcf,
            0xe1, 0x48, 0x73, 0x66, 0xb7, 0x55, 0x53, 0xea, 0xa6, 0xf6, 0x97, 0xfc, 0xa1, 0x99, 0x64, 0x87]
  off := 0

/-- The reset state with that generator. -/
def seededState : State := { State.reset with gs := genSeed, gsd := true }

/-- A generator with four bytes buffered and its counter space used up: the end of its stream is near. -/
def lastBytes : State :=
  { State.reset with
    gs := { c := { s := Vector.replicate 16 0, x := true }, buf := (Vector.replicate 64 0).set 63 7, off := 60 }
    gsd := true }

/-- A generator whose buffer holds the bytes 0, 1, 2, ... 63. -/
def rampState : State :=
  { State.reset with
    gs := { c := CipherCtx.wiped, buf := Vector.ofFn fun i : Fin 64 => BitVec.ofNat 8 i.val, off := 0 }
    gsd := true }

/-- A plain session, a keyed session, a keyed cipher context, and one that is used up. -/
def hashState : State := { State.reset with hmode := .hash, hs := initSession }
def macState : State := { State.reset with hmode := .mac, hs := initSession }
def keyedState : State := { State.reset with ck := true, cn := true }
def usedUpState : State := { keyedState with cs := { s := Vector.replicate 16 0, x := true } }

/-! ## Well-formedness: a term for each check, which the check refuses -/

theorem test_wellFormed_refuses_65536_bytes : ¬ (Instr.hashUpdate 0 (List.replicate 65536 0)).wellFormed := by
  show ¬ (List.replicate 65536 (0 : Byte)).length < 65536
  rw [List.length_replicate]
  exact Nat.lt_irrefl _

theorem test_wellFormed_accepts_65535_bytes : (Instr.hashUpdate 0 (List.replicate 65535 0)).wellFormed :=
  (List.length_replicate.trans_lt (by decide) : (List.replicate 65535 (0 : Byte)).length < 65536)

theorem test_argLegal_refuses : ¬ (Instr.hashInit 1 []).argLegal := by decide
theorem test_outlenLegal_refuses_65 : ¬ (Instr.hashFinal 65 []).outlenLegal := by decide
theorem test_outlenLegal_refuses_0_for_verify : ¬ (Instr.macVerify 0 []).outlenLegal := by decide
theorem test_lenLegal_refuses : ¬ (Instr.ciphNonce 0 [0, 0, 0, 0, 0, 0, 0]).lenLegal := by decide
theorem test_lenLegal_refuses_other_than_outlen : ¬ (Instr.macVerify 4 [1, 2, 3]).lenLegal := by decide
theorem test_legal_accepts : (Instr.macVerify 4 [1, 2, 3, 4]).legal := by decide

/-! ## Decoding: one word for each constructor, `OPCODE` in bits 31..24, `ARG` in 23..16, `LEN` in 15..0 -/

theorem test_decode_sysReset : decode 0x01000000 [] = .ok (.sysReset 0 []) := by decide
theorem test_decode_sysStatus : decode 0x02050001 [9] = .ok (.sysStatus 5 [9]) := by decide
theorem test_decode_hashInit : decode 0x10000000 [] = .ok (.hashInit 0 []) := by decide
theorem test_decode_hashUpdate : decode 0x11000002 [7, 8] = .ok (.hashUpdate 0 [7, 8]) := by decide
theorem test_decode_hashFinal : decode 0x12400000 [] = .ok (.hashFinal 64 []) := by decide
theorem test_decode_hashOneshot : decode 0x13200001 [7] = .ok (.hashOneshot 32 [7]) := by decide
theorem test_decode_macInit : decode 0x20000002 [11, 11] = .ok (.macInit 0 [11, 11]) := by decide
theorem test_decode_macUpdate : decode 0x21000001 [3] = .ok (.macUpdate 0 [3]) := by decide
theorem test_decode_macFinal : decode 0x22100000 [] = .ok (.macFinal 16 []) := by decide
theorem test_decode_macVerify : decode 0x23020002 [1, 2] = .ok (.macVerify 2 [1, 2]) := by decide
theorem test_decode_ciphKey : decode 0x30000001 [1] = .ok (.ciphKey 0 [1]) := by decide
theorem test_decode_ciphNonce : decode 0x31800002 [1, 2] = .ok (.ciphNonce 128 [1, 2]) := by decide
theorem test_decode_ciphBlock : decode 0x32000000 [] = .ok (.ciphBlock 0 []) := by decide
theorem test_decode_prgSeed : decode 0x40000001 [5] = .ok (.prgSeed 0 [5]) := by decide
theorem test_decode_prgStir : decode 0x41000000 [] = .ok (.prgStir 0 []) := by decide
theorem test_decode_prgFill : decode 0x42008001 [] = .ok (.prgFill 0 0x8001) := by decide
theorem test_decode_prgRand8 : decode 0x43000000 [] = .ok (.prgRand8 []) := by decide
theorem test_decode_prgRand16 : decode 0x43010000 [] = .ok (.prgRand16 []) := by decide
theorem test_decode_prgRand32 : decode 0x43020001 [6] = .ok (.prgRand32 [6]) := by decide
theorem test_decode_prgRand64 : decode 0x43030000 [] = .ok (.prgRand64 []) := by decide
theorem test_decode_prgUniform8 : decode 0x44000001 [13] = .ok (.prgUniform8 [13]) := by decide
theorem test_decode_prgUniform16 : decode 0x44010002 [1, 2] = .ok (.prgUniform16 [1, 2]) := by decide
theorem test_decode_prgUniform32 : decode 0x44020000 [] = .ok (.prgUniform32 []) := by decide
theorem test_decode_prgUniform64 : decode 0x44030001 [4] = .ok (.prgUniform64 [4]) := by decide

theorem test_decode_zero_word : decode 0 [] = .error (.undefinedOpcode 0) := by decide
theorem test_decode_undefined : decode 0x45000002 [0x78, 0x79] = .error (.undefinedOpcode 0x45) := by decide
theorem test_decode_reserved_wsel : decode 0x43040000 [] = .error (.reservedWsel 4) := by decide
theorem test_decode_short_payload : decode 0x11000003 [1, 2] = .error .payloadLength := by decide
theorem test_encode_oneshot : encode (.hashOneshot 32 [1, 2, 3]) = (0x13200003, [1, 2, 3]) := by decide
theorem test_encode_fill : encode (.prgFill 0 100) = (0x42000064, []) := by decide
theorem test_tableWord_payload_is_zero : decodeTableWord 32 0x44020004 = some (.prgUniform32 [0, 0, 0, 0]) := by decide

/-! ## The step -/

/-- R82 and the third row of V19: the two payload bytes are consumed, the next frame is untouched. -/
theorem test_step_undefined_consumes_payload :
    stepsTo { State.reset with cmd := [.command 0x45000002, .command 0x10000000], din := [0x78, 0x79, 0x7a] } (fun t =>
      t.cmd = [.command 0x10000000] && t.din = [0x7a] && t.statusReg = 0x00000001 && t.rsp = some .eIllegal) = true := by
  decide +kernel

/-- R250. -/
theorem test_step_reset_input :
    stepsTo { seededState with cmd := [.reset], err := .eSeq, rsp := some .eSeq } (· = State.reset) = true := by
  decide +kernel

/-- The first command after reset. -/
theorem test_step_fetchWord :
    stepsTo (State.reset.withFetchWord 32 0x10000000) (fun t => t.statusReg = 0x00000100 && t.rsp = some .ok) = true := by
  decide +kernel

/-- R232: a run with an error before a `SYS_RESET` has a clear latch at its end and yet a response that is not `OK`. -/
theorem test_run_with_error_then_reset :
    let s : State := { State.reset with cmd := [.command 0x12400000, .command 0x01000000] }
    (match runSteps 2 s with
     | .next t => t.err == .ok
     | _ => false) = true ∧ s.everyResponseOk 2 = false := by decide +kernel

/-! ## System commands -/

/-- The example of R211. -/
theorem test_sysStatus_example :
    answers (.sysStatus 0 []) { State.reset with hmode := .hash, ck := true, err := .eUnseeded } .ok [5, 5, 0, 0] = true := by
  decide

/-- The last row of V19: a `SYS_RESET` with `LEN = 2` does not reset. -/
theorem test_sysReset_bad_len : after (.sysReset 0 [0x78, 0x79]) seededState = seededState.raise .eLen := by decide +kernel

/-- V20: the only command that clears `ERR`. -/
theorem test_sysReset_clears : (after (.sysReset 0 []) { seededState with err := .eSeq }).statusReg = 0 := by decide

/-! ## Hash -/

/-- The example of R111. -/
theorem test_hashUpdate_abc :
    (after (.hashUpdate 0 [0x61, 0x62, 0x63]) hashState).hs.n = 3 ∧
    memRead (after (.hashUpdate 0 [0x61, 0x62, 0x63]) hashState).hs.buf 0 4 = [0x61, 0x62, 0x63, 0] := by decide +kernel

/-- V2. -/
theorem test_hashFinal_abc :
    answers (.hashFinal 16 []) (after (.hashUpdate 0 [0x61, 0x62, 0x63]) hashState) .ok
      [0xdd, 0xaf, 0x35, 0xa1, 0x93, 0x61, 0x7a, 0xba, 0xcc, 0x41, 0x73, 0x49, 0xae, 0x20, 0x41, 0x31] = true := by
  decide +kernel

/-- V7, `L = 112`: two compressions in `Finish`. -/
theorem test_hashOneshot_112 :
    answers (.hashOneshot 8 (List.replicate 112 0x61)) State.reset .ok
      [0xc0, 0x1d, 0x08, 0x0e, 0xfd, 0x49, 0x27, 0x76] = true := by
  decide +kernel

/-- V7, `L = 129`: a compression inside `Absorb`. -/
theorem test_hashOneshot_129 :
    answers (.hashOneshot 8 (List.replicate 129 0x61)) State.reset .ok
      [0x4f, 0x68, 0x1e, 0x0b, 0xd5, 0x3c, 0xda, 0x4b] = true := by
  decide +kernel

/-- V19: `E_OUTLEN` before `E_LEN`. -/
theorem test_hashFinal_priority : answers (.hashFinal 65 [0x61, 0x62, 0x63]) State.reset .eOutlen [] = true := by
  decide +kernel

/-- R103: the list of primes is that of the numbers up to 409 with no divisor but 1 and themselves. -/
theorem test_firstPrimes :
    firstPrimes.length = 80 ∧
    firstPrimes = (List.range 410).filter fun p => 2 ≤ p && (List.range p).all fun d => d < 2 || p % d != 0 := by
  decide +kernel

/-! ## Keyed hash -/

/-- V10 (d): empty key, empty message. -/
theorem test_macFinal_empty :
    answers (.macFinal 8 []) (after (.macInit 0 []) State.reset) .ok
      [0xb9, 0x36, 0xce, 0xe8, 0x6c, 0x9f, 0x87, 0xaa] = true := by
  decide +kernel

/-- The example of R228: `OUTLEN` is checked before `LEN` and before the mode. -/
theorem test_macVerify_priority : answers (.macVerify 70 [1, 2, 3]) State.reset .eOutlen [] = true := by decide +kernel

/-- The example of R134: the last byte of the expected tag differs in one bit, or not. -/
theorem test_macVerify_compares :
    tagDifference [0x16, 0x4b, 0x7a, 0x7b] [0x16, 0x4b, 0x7a, 0x7b] = 0 ∧
    tagDifference [0x16, 0x4b, 0x7a, 0x7b] [0x16, 0x4b, 0x7a, 0x7a] ≠ 0 := by decide

/-- The example of R131. -/
theorem test_macInit_key :
    memRead (after (.macInit 0 [0x4a, 0x65, 0x66, 0x65]) State.reset).macKey 0 5 = [0x4a, 0x65, 0x66, 0x65, 0] ∧
    (after (.macInit 0 [0x4a, 0x65, 0x66, 0x65]) State.reset).statusReg = 0x00000200 := by
  decide +kernel

/-- V19: a hash update in a keyed session. -/
theorem test_macUpdate_out_of_session : answers (.macUpdate 0 [1]) hashState .eSeq [] = true := by decide

/-! ## Cipher -/

/-- V13 (a). -/
theorem test_qr : qr 0x11111111 0x01020304 0x9b8d6f43 0x01234567 = (0xea2a92f4, 0xcb1cf8ce, 0x4581472e, 0x5881c4bb) := by
  decide

/-- The examples of R160 and R161. -/
theorem test_ciphKey_words :
    let t := after (.ciphKey 0 ((List.range 32).map (BitVec.ofNat 8))) State.reset
    t.cs.s[0] = 0x61707865 ∧ t.cs.s[4] = 0x03020100 ∧ t.cs.s[11] = 0x1F1E1D1C ∧ t.statusReg = 0x00000400 := by
  decide +kernel

theorem test_ciphNonce_words :
    let t := after (.ciphNonce 0 [1, 0, 0, 0, 0, 0, 0, 2]) State.reset
    t.cs.s[12] = 0 ∧ t.cs.s[14] = 0x00000001 ∧ t.cs.s[15] = 0x02000000 ∧ t.statusReg = 0x00000800 := by
  decide +kernel

/-- V12, the third nonce: 64 bytes of keystream, the first and the last. -/
theorem test_ciphBlock :
    let t := after (.ciphBlock 0 []) (after (.ciphNonce 0 [0, 0, 0, 9, 0, 0, 0, 0x4a])
      (after (.ciphKey 0 ((List.range 32).map (BitVec.ofNat 8))) State.reset))
    t.dout.take 4 = [0x61, 0x46, 0xf2, 0x56] ∧ t.dout.drop 60 = [0x0f, 0x09, 0x4e, 0xe5] ∧ t.cs.s[12] = 1 := by
  decide +kernel

/-- V13 (b), the third and the last row. -/
theorem test_increment_carry :
    increment { s := ((((Vector.replicate 16 0).set 12 0xffffffff).set 13 0xffffffff).set 14 5).set 15 0x77, x := false } =
      { s := ((Vector.replicate 16 0).set 14 6).set 15 0x77, x := false } := by
  decide +kernel

theorem test_increment_wraps :
    increment { s := ((((Vector.replicate 16 0).set 12 0xffffffff).set 13 0xffffffff).set 14 0xffffffff).set 15 0x77,
                x := false } =
      { s := (Vector.replicate 16 0).set 15 0x77, x := true } := by
  decide +kernel

/-! ## Generator -/

/-- V14: the whole generator after `PRG_SEED "seed"`. -/
theorem test_prgSeed : (after (.prgSeed 0 [0x73, 0x65, 0x65, 0x64]) State.reset).gs = genSeed := by decide +kernel

/-- V17: the key and nonce words after `PRG_STIR "more"`; buffer, offset and counter as before. -/
theorem test_prgStir :
    let t := after (.prgStir 0 [0x6d, 0x6f, 0x72, 0x65]) seededState
    t.gs.c.s = #v[0x61707865, 0x3320646e, 0x79622d32, 0x6b206574, 0x8f14bffe, 0x39a31a4c, 0x520e85b5, 0xb9afb1f3,
                  0xbdb6e609, 0x732acb39, 0xbca8374c, 0x65316855, 0x00000001, 0x00000000, 0xf75f8199, 0x46bba397] ∧
    t.gs.buf = genSeed.buf ∧ t.gs.off = 0 := by
  decide +kernel

/-- V15: 65 bytes end in the second block, with the counter at 2. -/
theorem test_prgFill_65 :
    let t := after (.prgFill 0 65) seededState
    t.dout.drop 62 = [0x64, 0x87, 0x66] ∧ t.gs.off = 1 ∧ t.gs.c.s[12] = 2 ∧ memRead t.gs.buf 0 3 = [0, 0xab, 0x66] := by
  decide +kernel

/-- The generator part of V19: the four bytes left are lost with the request that needs more. -/
theorem test_prgFill_exhausted :
    answers (.prgFill 0 5) lastBytes .eExhausted [] = true ∧
    (after (.prgFill 0 5) lastBytes).gs.buf = Vector.replicate 64 0 ∧
    (after (.prgFill 0 5) lastBytes).statusReg = 0x00006006 := by
  decide +kernel

/-- V16. -/
theorem test_prgRand8 : answers (.prgRand8 []) seededState .ok [0xc4] = true := by decide +kernel
theorem test_prgRand16 : answers (.prgRand16 []) seededState .ok [0xc4, 0xcb] = true := by decide +kernel
theorem test_prgRand64 :
    answers (.prgRand64 []) seededState .ok [0xc4, 0xcb, 0x60, 0x03, 0xad, 0xb6, 0x24, 0x15] = true := by decide +kernel

/-- V16, straddling. -/
theorem test_prgRand32_straddles :
    answers (.prgRand32 []) (after (.prgFill 0 62) seededState) .ok [0x64, 0x87, 0x66, 0xab] = true := by decide +kernel

/-- V18. -/
theorem test_prgUniform8 : answers (.prgUniform8 [13]) seededState .ok [1] = true := by decide +kernel
theorem test_prgUniform16 : answers (.prgUniform16 [0x40, 0x9c]) seededState .ok [0x84, 0x2f] = true := by decide +kernel
theorem test_prgUniform32_rejects :
    answers (.prgUniform32 [1, 0, 0, 0x80]) seededState .ok [0x24, 0x90, 0xc9, 0x57] = true := by decide +kernel
theorem test_prgUniform64_rejects :
    answers (.prgUniform64 [0, 0, 0xe8, 0x89, 0x04, 0x23, 0xc7, 0x8a]) seededState .ok
      [0x05, 0xfd, 0x95, 0x9c, 0x20, 0x6d, 0x02, 0x4d] = true := by decide +kernel
theorem test_prgUniform8_unseeded : answers (.prgUniform8 [0]) State.reset .eUnseeded [] = true := by decide +kernel
theorem test_prgUniform16_one_consumes_nothing :
    after (.prgUniform16 [1, 0]) seededState = seededState.respond [0, 0] := by decide +kernel

/-! ## Witnesses: inputs that meet the hypotheses of the statements, each named after its statement -/

theorem witness_DecodeOfEncodeIsTheCommand : (Instr.hashUpdate 0 [1, 2]).wellFormed := by decide

theorem witness_EncodeOfDecodeIsTheFrame : decode 0x12400000 [] = .ok (.hashFinal 64 []) := by decide

theorem witness_StepRunsTheDecodedCommand :
    let s : State := { State.reset with cmd := [.command 0x11000001], din := [5, 6] }
    s.cmd = .command 0x11000001 :: [] ∧ s.din = [5] ++ [6] ∧ decode 0x11000001 [5] = .ok (.hashUpdate 0 [5]) := by decide

/-- The zero word, the opcode just above the last defined one, and the least and the greatest reserved `WSEL`. -/
theorem witness_StepOfAnUndefinedWordIsIllegal :
    let codes : List Byte := [0x01, 0x02, 0x10, 0x11, 0x12, 0x13, 0x20, 0x21, 0x22, 0x23, 0x30, 0x31, 0x32, 0x40, 0x41,
      0x42, 0x43, 0x44]
    (inLen 0x00000000 ≤ State.reset.din.length ∧ opcodeOf 0x00000000 ∉ codes) ∧
    (inLen 0x45000000 ≤ State.reset.din.length ∧ opcodeOf 0x45000000 ∉ codes) ∧
    (inLen 0x43040000 ≤ State.reset.din.length ∧ opcodeOf 0x43040000 = 0x43 ∧ 3 < (argOf 0x43040000).toNat) ∧
    (inLen 0x44ff0000 ≤ State.reset.din.length ∧ opcodeOf 0x44ff0000 = 0x44 ∧ 3 < (argOf 0x44ff0000).toNat) := by decide

theorem witness_StepWithNothingIssuedChangesNothing : State.reset.cmd = [] := rfl

theorem witness_ResetInputRestoresTheResetState : ({ seededState with cmd := [.reset] } : State).cmd = .reset :: [] := rfl

theorem witness_ShortPayloadIsRefused :
    ({ State.reset with cmd := [.command 0x11000001] } : State).din.length < inLen 0x11000001 := by decide

theorem witness_StepKeepsTheBoundaryConditions :
    (State.reset.withFetchWord 32 0x10000000).Inv ∧ ∃ s', step (State.reset.withFetchWord 32 0x10000000) = .next s' := by
  refine ⟨⟨?_, ?_, ?_, ?_, ?_, ?_, ?_, ?_⟩, ⟨_, rfl⟩⟩
  · exact fun _ => rfl
  · decide
  · decide
  · exact fun _ => rfl
  · exact fun h => by cases h
  · exact fun _ => rfl
  · exact fun h => by cases h
  · exact fun h => by cases h

theorem witness_ErrorsOtherThanExhaustionArePrecise :
    ∃ t, exec (.hashUpdate 0 [1]) State.reset = .next t ∧ t.rsp = some .eSeq ∧ t.dout = [] := answers_next (by decide)

theorem witness_LatchKeepsTheFirstError_latched :
    ∃ t, exec (.hashUpdate 0 [1]) { State.reset with err := .eLen } = .next t ∧ t.rsp = some .eSeq ∧ t.dout = [] :=
  answers_next (by decide)

theorem witness_LatchKeepsTheFirstError_clear :
    ∃ t, exec (.sysReset 0 []) { State.reset with err := .eLen } = .next t ∧ t.rsp = some .ok ∧ t.dout = [] :=
  answers_next (by decide)

/-- A run of one command, with no reset. -/
theorem witness_NoFaultIsRecordedWhenEveryResponseIsOk :
    let s : State := { State.reset with cmd := [.command 0x10000000] }
    s.err = .ok ∧ PortEvent.reset ∉ s.cmd ∧ (∀ cw, .command cw ∈ s.cmd → opcodeOf cw ≠ 0x01) ∧
    (∃ t, runSteps 1 s = .next t) ∧ s.everyResponseOk 1 = true := by
  refine ⟨rfl, by decide, ?_, ⟨_, rfl⟩, by decide +kernel⟩
  intro cw h
  obtain rfl : cw = 0x10000000 := by simpa using h
  decide

theorem witness_FirstFailingCheckIsReported :
    ¬ (Instr.hashInit 1 [7]).argLegal ∧
    ((Instr.macVerify 65 [1]).argLegal ∧ ¬ (Instr.macVerify 65 [1]).outlenLegal) ∧
    ((Instr.macVerify 64 [1]).argLegal ∧ (Instr.macVerify 64 [1]).outlenLegal ∧ ¬ (Instr.macVerify 64 [1]).lenLegal) ∧
    ((Instr.macFinal 64 []).legal ∧ (Instr.macFinal 64 []).outOfSequence hashState) ∧
    ((Instr.prgFill 0 0).legal ∧ (Instr.prgFill 0 0).unseeded State.reset) ∧
    ((Instr.prgFill 0 0).legal ∧ ¬ (Instr.prgFill 0 0).outOfSequence lastBytes ∧
      ¬ (Instr.prgFill 0 0).unseeded lastBytes) := by
  refine ⟨by decide, by decide, by decide, ⟨by decide, ?_⟩, ⟨by decide, rfl⟩, by decide, id, ?_⟩
  · exact fun h => by cases h
  · exact fun h => by cases h

theorem witness_ExhaustionIsRaisedWhereABlockIsNeeded_cipher :
    ∃ t, exec (.ciphBlock 0 []) usedUpState = .next t ∧ t.rsp = some .eExhausted ∧ t.dout = [] := answers_next (by decide)

theorem witness_ExhaustionIsRaisedWhereABlockIsNeeded_generator :
    ∃ t, exec (.prgRand64 []) lastBytes = .next t ∧ t.rsp = some .eExhausted ∧ t.dout = [] :=
  answers_next (by decide +kernel)

theorem witness_UnitsDoNotTouchEachOther :
    (∃ t, exec (.ciphNonce 0 [1, 2, 3, 4, 5, 6, 7, 8]) macState = .next t ∧ t.rsp = some .ok ∧ t.dout = []) ∧
    (Instr.ciphNonce 0 [1, 2, 3, 4, 5, 6, 7, 8]).opcode ≠ 0x01 := ⟨answers_next (by decide), by decide⟩

theorem witness_NoCommandTouchesWhatTheHostIssuesNext :
    ∃ t, exec (.hashInit 0 []) { State.reset with din := [1] } = .next t ∧ t.rsp = some .ok ∧ t.dout = [] :=
  answers_next (by decide)

theorem witness_LatchDoesNotInfluenceCommands :
    (∃ t, exec (.prgRand8 []) { lastBytes with err := .eSeq } = .next t ∧ t.rsp = some .ok ∧ t.dout = [0]) ∧
    (Instr.prgRand8 []).opcode ≠ 0x02 := ⟨answers_next (by decide +kernel), by decide⟩

/-- Sessions open, of the other kind, and none; the ends of `OUTLEN`; and a hash command that ends with an error. -/
theorem witness_HashCommandsMoveTheSessionMode :
    (hashState.hmode = .hash ∧ macState.hmode ≠ .hash ∧ State.reset.hmode ≠ .hash) ∧
    ((0 : Byte).toNat ≤ 64 ∧ (64 : Byte).toNat ≤ 64) ∧
    ∃ t, exec (.hashUpdate 0 [1]) macState = .next t ∧ (Instr.hashUpdate 0 [1]).opcode.extractLsb' 4 4 = 1#4 ∧
      t.rsp ≠ some .ok := by
  exact ⟨by decide, by decide, ⟨_, rfl, by decide, by decide⟩⟩

/-- Likewise, with the ends of `OUTLEN` of each command, and a command that changes the mode. -/
theorem witness_MacCommandsMoveTheSessionMode :
    (macState.hmode = .mac ∧ hashState.hmode ≠ .mac ∧ State.reset.hmode ≠ .mac) ∧
    ((0 : Byte).toNat ≤ 64 ∧ (64 : Byte).toNat ≤ 64) ∧
    (1 ≤ (1 : Byte).toNat ∧ (1 : Byte).toNat ≤ 64 ∧ (zeros 1).length = (1 : Byte).toNat ∧ 1 ≤ (64 : Byte).toNat ∧
      (zeros 64).length = (64 : Byte).toNat) ∧
    ∃ t, exec (.sysReset 0 []) hashState = .next t ∧ t.hmode ≠ hashState.hmode := by
  exact ⟨by decide, by decide, by decide, ⟨_, rfl, by decide⟩⟩

theorem witness_GeneratorIsSeededBySeedAlone :
    (∃ t, exec (.prgSeed 0 []) State.reset = .next t ∧ t.rsp = some .ok ∧ t.dout = []) ∧
    (∃ t, exec (.prgStir 0 [1]) State.reset = .next t ∧ t.rsp = some .eUnseeded ∧ t.dout = []) ∧
    (∃ t, exec (.prgFill 0 5) lastBytes = .next t ∧ t.rsp = some .eExhausted ∧ t.dout = []) :=
  ⟨answers_next (by decide +kernel), answers_next (by decide), answers_next (by decide +kernel)⟩

/-- The greatest payload that does not fill the buffer, and the one that does. -/
theorem witness_AbsorbFillsTheBufferThenCompresses :
    initSession.n.val + (zeros 127).length < 128 ∧ initSession.n.val + (zeros 128).length = 128 := by decide +kernel

/-- The ends of the two ranges of `t`. -/
theorem witness_ScheduleFollowsTheRecurrence : (0 < 16 ∧ 15 < 16) ∧ (16 ≤ 16 ∧ 16 < 80) ∧ (16 ≤ 79 ∧ 79 < 80) := by decide

/-- The first and the last round. -/
theorem witness_CompressIsEightyRoundsAndTheAddition : 0 < 80 ∧ 79 < 80 := by decide

theorem witness_HashUpdateAbsorbsItsPayload : hashState.hmode = .hash := rfl

theorem witness_HashFinalOutputsAPrefixOfTheDigest :
    hashState.hmode = .hash ∧ (0 : Byte).toNat ≤ 64 ∧ (64 : Byte).toNat ≤ 64 := by decide

theorem witness_HashOneshotIsInitUpdateFinal : (64 : Byte).toNat ≤ 64 := by decide

theorem witness_HashSessionAnswersTheDigestOfTheMessage : (64 : Byte).toNat ≤ 64 := by decide

theorem witness_CanonicalKeyIsOneBlock :
    (zeros 128).length + 0 ≤ 128 ∧ (zeros 0).length + 128 ≤ 128 ∧ 128 < (zeros 129).length := by decide +kernel

theorem witness_MacUpdateAbsorbsItsPayload : macState.hmode = .mac := rfl

theorem witness_MacFinalOutputsThePrefixOfTheOuterDigest : macState.hmode = .mac ∧ (64 : Byte).toNat ≤ 64 := by decide

theorem witness_MacVerifyAnswersEqualityOfTheTags :
    macState.hmode = .mac ∧ 1 ≤ (1 : Byte).toNat ∧ (1 : Byte).toNat ≤ 64 ∧ ([9] : List Byte).length = (1 : Byte).toNat := by
  decide

theorem witness_MacSessionAnswersTheClosedForm : (64 : Byte).toNat ≤ 64 := by decide

/-- Three blocks from counter 0, and the one block left before the field wraps. -/
theorem witness_CounterNeverRepeatsWithinAKeying :
    (1 ≤ 3 ∧ ∀ j, j < 3 → (iterate increment j CipherCtx.wiped).x = false) ∧
    (let c : CipherCtx := { s := (((Vector.replicate 16 0).set 12 0xffffffff).set 13 0xffffffff).set 14 0xffffffff, x := false }
     (1 ≤ 1 ∧ ∀ j, j < 1 → (iterate increment j c).x = false) ∧ (iterate increment 1 c).x = true) := by
  decide +kernel

theorem witness_CiphKeyLoadsConstantsAndKey : (zeros 32).length = 32 := by decide

theorem witness_CiphNonceLoadsTheNonce : (zeros 8).length = 8 := by decide

theorem witness_CiphBlockOutputsTheKeystreamBlock :
    keyedState.ck = true ∧ keyedState.cn = true ∧ keyedState.cs.x = false := by decide

theorem witness_PrgStirXorsTheDigest : seededState.gsd = true := rfl

theorem witness_BufferedBytesOutliveAStir :
    4 ≤ 64 - lastBytes.gs.off.val ∧
    fill 4 lastBytes.gs = .done [0, 0, 0, 7]
      { c := lastBytes.gs.c, buf := Vector.replicate 64 0, off := 64 } := by
  decide +kernel

/-- The whole of a stream that is about to end, and the first byte of one that is not. -/
theorem witness_PrgFillServesTheStreamInOrder :
    (lastBytes.gsd = true ∧ (4 : BitVec 16).toNat ≤ lastBytes.gs.bytesLeft) ∧
    (seededState.gsd = true ∧ (65535 : BitVec 16).toNat ≤ seededState.gs.bytesLeft) := by decide +kernel

theorem witness_RequestsBeyondTheStreamAreExhausted :
    (usedUpState.ck = true ∧ usedUpState.cn = true ∧ usedUpState.cs.x = true) ∧
    (lastBytes.gsd = true ∧ lastBytes.gs.bytesLeft < (5 : BitVec 16).toNat) := by decide +kernel

/-- Four bytes 0, 0, 0, 7 are left: four draws of 8 bits, two of 16, one of 32, all rejected, and none of 64. -/
theorem witness_RequestsBeyondTheStreamAreExhausted_uniform :
    ∀ p ∈ [(1, [200]), (2, [0x40, 0x9c]), (4, [1, 0, 0, 0x80]), (8, [2, 0, 0, 0, 0, 0, 0, 0])],
      (p : Nat × List Byte).2.length = p.1 ∧ lastBytes.gsd = true ∧ 2 ≤ fromLE p.2 ∧
      (∀ j, j < 4 → p.1 * (j + 1) ≤ lastBytes.gs.bytesLeft →
        fromLE ((List.range p.1).map fun m => streamByte lastBytes.gs (p.1 * j + m)) <
          (2 ^ (8 * p.1) - fromLE p.2) % fromLE p.2) ∧
      lastBytes.gs.bytesLeft < p.1 * (4 + 1) := by
  decide +kernel

theorem witness_SeededGeneratorServesTheKeystream :
    ∃ g', seedGenerator [0x73, 0x65, 0x65, 0x64] Generator.wiped = .ok g' ∧ 0 ≤ g'.bytesLeft ∧
      g'.bytesLeft ≤ g'.bytesLeft :=
  ⟨_, seedGenerator_ok _ _, Nat.zero_le _, Nat.le_refl _⟩

theorem witness_PrgRandIsAFillOfItsWidth :
    (lastBytes.gsd = true ∧ 1 ≤ lastBytes.gs.bytesLeft ∧ 2 ≤ lastBytes.gs.bytesLeft ∧ 4 ≤ lastBytes.gs.bytesLeft) ∧
    (seededState.gsd = true ∧ 8 ≤ seededState.gs.bytesLeft) := by decide +kernel

theorem witness_UniformOfATrivialBoundConsumesNothing :
    seededState.gsd = true ∧ (fromLE [0] ≤ 1 ∧ fromLE [1, 0] ≤ 1 ∧ fromLE [1, 0, 0, 0] ≤ 1 ∧
      fromLE [0, 0, 0, 0, 0, 0, 0, 0] ≤ 1) := by decide

/-- Bound 13, threshold 9: the draws 0 to 8 are rejected and 9 is accepted. -/
theorem witness_UniformOutputsTheFirstAcceptedDraw_8 :
    rampState.gsd = true ∧ 2 ≤ fromLE [13] ∧ 1 * (9 + 1) ≤ rampState.gs.bytesLeft ∧
    (∀ j, j < 9 → fromLE ((List.range 1).map fun m => streamByte rampState.gs (1 * j + m)) < (2 ^ (8 * 1) - 13) % 13) ∧
    (2 ^ (8 * 1) - 13) % 13 ≤ fromLE ((List.range 1).map fun m => streamByte rampState.gs (1 * 9 + m)) := by
  decide +kernel

/-- The greatest bound of each other width: the first draw of the ramp is accepted. -/
theorem witness_UniformOutputsTheFirstAcceptedDraw_16_32_64 :
    ∀ n ∈ [2, 4, 8],
      ([0xff, 0xff, 0xff, 0xff, 0xff, 0xff, 0xff, 0xff].take n : List Byte).length = n ∧ rampState.gsd = true ∧
      2 ≤ fromLE ([0xff, 0xff, 0xff, 0xff, 0xff, 0xff, 0xff, 0xff].take n) ∧ n * (0 + 1) ≤ rampState.gs.bytesLeft ∧
      (2 ^ (8 * n) - fromLE ([0xff, 0xff, 0xff, 0xff, 0xff, 0xff, 0xff, 0xff].take n)) %
          fromLE ([0xff, 0xff, 0xff, 0xff, 0xff, 0xff, 0xff, 0xff].take n) ≤
        fromLE ((List.range n).map fun m => streamByte rampState.gs (n * 0 + m)) := by
  decide +kernel

theorem witness_DrawLoopEndsByItself : (64 = 8 ∨ 64 = 16 ∨ 64 = 32 ∨ 64 = 64) := by decide

theorem witness_UniformIsBelowItsBound :
    uniform 8 0 rampState.gs = .done 0 rampState.gs ∧
    ∃ g', uniform 8 13 seededState.gs = .done 1 g' := by
  refine ⟨by decide, (takeBuffered 1 genSeed).2, by decide +kernel⟩

end Sys2Proof.Tests
end

