-- ==== Sys2Proof/Proofs/Scope.lean ====
section
/-! SUPPORT. The statements about the scope of the engine (00_scope.md). -/

namespace Sys2Proof.Machine

/-- Settles O6: with an empty `CMD` the fetch is idle, and an idle fetch hands the state on as it is. -/
theorem stepWithNothingIssuedChangesNothing : Obligations.StepWithNothingIssuedChangesNothing := by
  intro s hcmd
  have hidle : s.fetch = .idle := State.fetch_idle hcmd
  simp only [step, hidle]

end Sys2Proof.Machine
end

section
/-! SUPPORT. The statements about the state (10_state.md): what reset gives, what every step keeps, which unit a command
can touch, and what the latch `ERR` and the ports have to do with it.

Every command is a list of checks and the state it ends in when none holds (`exec_eq_guarded`). From this come the two
ways of reading an execution used below: `UnitEffect`, which fields a command can have written, for the statements about
frames; and `Instr.finished`, the state itself, for the invariant and for the comparison of two runs. -/

namespace Sys2Proof

open Sys2Proof.Machine

/-- The checks a command makes, in the order of 60_exceptions.md R228. -/
def Instr.checks (s : State) : Instr → List Check
  | .sysReset arg inp => [argZero arg, lenIs 0 inp]
  | .sysStatus arg inp => [argZero arg, lenIs 0 inp]
  | .hashInit arg inp => [argZero arg, lenIs 0 inp]
  | .hashUpdate arg _ => [argZero arg, modeIs .hash s]
  | .hashFinal outlen inp => [outlenMax outlen, lenIs 0 inp, modeIs .hash s]
  | .hashOneshot outlen _ => [outlenMax outlen]
  | .macInit arg _ => [argZero arg]
  | .macUpdate arg _ => [argZero arg, modeIs .mac s]
  | .macFinal outlen inp => [outlenMax outlen, lenIs 0 inp, modeIs .mac s]
  | .macVerify outlen inp => [outlenMin outlen, outlenMax outlen, lenIs outlen.toNat inp, modeIs .mac s]
  | .ciphKey arg inp => [argZero arg, lenIs Config.keyLen inp]
  | .ciphNonce arg inp => [argZero arg, lenIs Config.nonceLen inp]
  | .ciphBlock arg inp => [argZero arg, lenIs 0 inp, keyed s]
  | .prgSeed arg _ => [argZero arg]
  | .prgStir arg _ => [argZero arg, seeded s]
  | .prgFill arg _ => [argZero arg, seeded s]
  | .prgRand8 inp => [lenIs 0 inp, seeded s]
  | .prgRand16 inp => [lenIs 0 inp, seeded s]
  | .prgRand32 inp => [lenIs 0 inp, seeded s]
  | .prgRand64 inp => [lenIs 0 inp, seeded s]
  | .prgUniform8 inp => [lenIs 1 inp, seeded s]
  | .prgUniform16 inp => [lenIs 2 inp, seeded s]
  | .prgUniform32 inp => [lenIs 4 inp, seeded s]
  | .prgUniform64 inp => [lenIs 8 inp, seeded s]

/-- The cipher context a seed sets up, before its first block (44_prg.md R177). -/
def Machine.seedContext (inp : List Byte) (c : CipherCtx) : CipherCtx :=
  nonceSetup (keySetup c ((sha inp).take 32)) (((sha inp).drop 32).take 8)

/-- The generator a seed leaves: the first block buffered, nothing consumed (44_prg.md R177). -/
def Machine.seededGenerator (inp : List Byte) (g : Generator) : Generator where
  c := increment (seedContext inp g.c)
  buf := memWrite g.buf 0 (block (seedContext inp g.c).s)
  off := 0

/-- The state a command ends in when none of its checks holds; it may still be one of `E_EXHAUSTED` (R227). -/
def Instr.finished (s : State) : Instr → State
  | .sysReset _ _ => s.clear.respond []
  | .sysStatus _ _ => s.respond (le32 s.statusReg)
  | .hashInit _ _ => { s with macKey := keyWiped, hs := initSession, hmode := .hash }.respond []
  | .hashUpdate _ inp => { s with hs := absorb inp s.hs }.respond []
  | .hashFinal outlen _ =>
    { s with hs := HashSession.wiped, hmode := .idle }.respond ((finish s.hs).1.take outlen.toNat)
  | .hashOneshot outlen inp =>
    { s with macKey := keyWiped, hs := HashSession.wiped, hmode := .idle }.respond ((sha inp).take outlen.toNat)
  | .macInit _ inp =>
    { s with
      macKey := memWrite keyWiped 0 (canonKey inp)
      hs := absorb (xorEach ipad (canonKey inp)) initSession
      hmode := .mac }.respond []
  | .macUpdate _ inp => { s with hs := absorb inp s.hs }.respond []
  | .macFinal outlen _ =>
    { s with hs := HashSession.wiped, macKey := keyWiped, hmode := .idle }.respond ((macTag s).1.take outlen.toNat)
  | .macVerify outlen inp =>
    { s with hs := HashSession.wiped, macKey := keyWiped, hmode := .idle }.respond
      (if tagDifference ((macTag s).1.take outlen.toNat) inp = 0 then [0x01] else [0x00])
  | .ciphKey _ inp => { s with cs := keySetup s.cs inp, ck := true }.respond []
  | .ciphNonce _ inp => { s with cs := nonceSetup s.cs inp, cn := true }.respond []
  | .ciphBlock _ _ =>
    if s.cs.x then s.raise .eExhausted else { s with cs := increment s.cs }.respond (block s.cs.s)
  | .prgSeed _ inp => { s with gs := seededGenerator inp s.gs, gsd := true }.respond []
  | .prgStir _ inp => { s with gs := stirGenerator inp s.gs }.respond []
  | .prgFill _ len => s.serve (fill len.toNat s.gs)
  | .prgRand8 _ => s.serve ((rand 8 s.gs).map (leBytes 1))
  | .prgRand16 _ => s.serve ((rand 16 s.gs).map (leBytes 2))
  | .prgRand32 _ => s.serve ((rand 32 s.gs).map (leBytes 4))
  | .prgRand64 _ => s.serve ((rand 64 s.gs).map (leBytes 8))
  | .prgUniform8 inp => s.serve ((uniform 8 (fromLE inp) s.gs).map (leBytes 1))
  | .prgUniform16 inp => s.serve ((uniform 16 (fromLE inp) s.gs).map (leBytes 2))
  | .prgUniform32 inp => s.serve ((uniform 32 (fromLE inp) s.gs).map (leBytes 4))
  | .prgUniform64 inp => s.serve ((uniform 64 (fromLE inp) s.gs).map (leBytes 8))

end Sys2Proof

namespace Sys2Proof.Machine

/-! ### Reading an execution -/

/-- `CIPH_BLOCK` behind its checks, with the two ends of `ProduceBlock` told apart by the flag. -/
theorem execCiphBlock_eq_guarded (arg : Byte) (inp : List Byte) (s : State) :
    execCiphBlock arg inp s = s.guarded [argZero arg, lenIs 0 inp, keyed s]
      (if s.cs.x then s.raise .eExhausted else { s with cs := increment s.cs }.respond (block s.cs.s)) := by
  cases hx : s.cs.x with
  | true => simp [execCiphBlock, produceBlock_of_exhausted hx]
  | false => simp [execCiphBlock, produceBlock_of_ready hx]

theorem seedGenerator_eq_seededGenerator (inp : List Byte) (g : Generator) :
    seedGenerator inp g = .ok (seededGenerator inp g) := seedGenerator_ok inp g

/-- `PRG_SEED` behind its check: a seed never raises. -/
theorem execPrgSeed_eq_guarded (arg : Byte) (inp : List Byte) (s : State) :
    execPrgSeed arg inp s = s.guarded [argZero arg]
      ({ s with gs := seededGenerator inp s.gs, gsd := true }.respond []) := by
  simp [execPrgSeed, seedGenerator_eq_seededGenerator]

/-- Every command makes its checks and, when none holds, ends in its own state. -/
theorem exec_eq_guarded (i : Instr) (s : State) : exec i s = s.guarded (i.checks s) (i.finished s) := by
  cases i with
  | ciphBlock arg inp => exact execCiphBlock_eq_guarded arg inp s
  | prgSeed arg inp => exact execPrgSeed_eq_guarded arg inp s
  | _ => rfl

/-- The inversion of an execution: it ended with the first error, or in the command's own state. -/
theorem exec_next_cases {i : Instr} {s t : State} (h : exec i s = .next t) :
    (firstError (i.checks s) = none ∧ t = i.finished s) ∨ ∃ e, t = s.raise e := by
  rw [exec_eq_guarded] at h
  rcases s.guarded_cases (i.checks s) (i.finished s) with ⟨hnone, hdone⟩ | ⟨e, -, hraise⟩
  · rw [hdone] at h
    cases h
    exact .inl ⟨hnone, rfl⟩
  · rw [hraise] at h
    cases h
    exact .inr ⟨e, rfl⟩

/-- The unit a command belongs to: the upper half of its opcode (30_encoding.md R81). -/
abbrev unitOf (i : Instr) : BitVec 4 := i.opcode.extractLsb' 4 4

/-- Which fields a command can have written, by the unit it belongs to (10_state.md R42). -/
inductive UnitEffect (i : Instr) (s : State) : State → Prop
  /-- A failed check, or a cipher context that is exhausted. -/
  | raised (e : Status) : UnitEffect i s (s.raise e)
  /-- `SYS_RESET`. -/
  | reset (arg : Byte) (inp : List Byte) (hi : i = .sysReset arg inp) : UnitEffect i s (s.clear.respond [])
  /-- `SYS_STATUS`. -/
  | status (hop : i.opcode = 0x02) (out : List Byte) : UnitEffect i s (s.respond out)
  /-- The hash and MAC commands, on the session they share. -/
  | session (hop : unitOf i = 1#4 ∨ unitOf i = 2#4) (hs : HashSession) (m : HMode) (key : Vector Byte 128)
      (out : List Byte) : UnitEffect i s ({ s with hs := hs, hmode := m, macKey := key }.respond out)
  /-- The cipher commands. -/
  | cipher (hop : unitOf i = 3#4) (c : CipherCtx) (ck cn : Bool) (out : List Byte) :
      UnitEffect i s ({ s with cs := c, ck := ck, cn := cn }.respond out)
  /-- The generator commands that complete. -/
  | generator (hop : unitOf i = 4#4) (g : Generator) (gsd : Bool) (out : List Byte) :
      UnitEffect i s ({ s with gs := g, gsd := gsd }.respond out)
  /-- A generator command that runs into exhaustion, with the generator as it then is (R227). -/
  | generatorRaised (hop : unitOf i = 4#4) (g : Generator) (e : Status) :
      UnitEffect i s ({ s with gs := g }.raise e)

/-- A command that ends by serving from the generator touches nothing else. -/
theorem UnitEffect.serve {i : Instr} (hop : unitOf i = 4#4) (s : State) (r : Served (List Byte)) :
    UnitEffect i s (s.serve r) := by
  cases r with
  | done out g => exact .generator hop g s.gsd out
  | raised e g => exact .generatorRaised hop g e

/-- A command that passes its checks touches its own unit. -/
theorem finished_unitEffect (i : Instr) (s : State) : UnitEffect i s (i.finished s) := by
  cases i with
  | sysReset arg inp => exact .reset arg inp rfl
  | sysStatus arg inp => exact .status rfl _
  | hashInit arg inp | hashUpdate arg inp | hashFinal arg inp | hashOneshot arg inp =>
    exact .session (.inl (by simp [unitOf, Instr.opcode])) _ _ _ _
  | macInit arg inp | macUpdate arg inp | macFinal arg inp | macVerify arg inp =>
    exact .session (.inr (by simp [unitOf, Instr.opcode])) _ _ _ _
  | ciphKey arg inp | ciphNonce arg inp => exact .cipher (by simp [unitOf, Instr.opcode]) _ _ _ _
  | ciphBlock arg inp =>
    simp only [Instr.finished]
    split
    · exact .raised _
    · exact .cipher (by simp [unitOf, Instr.opcode]) _ _ _ _
  | prgSeed arg inp | prgStir arg inp => exact .generator (by simp [unitOf, Instr.opcode]) _ _ _
  | _ => exact .serve (by simp [unitOf, Instr.opcode]) _ _

/-- Every execution touches one unit only. -/
theorem exec_unitEffect {i : Instr} {s t : State} (h : exec i s = .next t) : UnitEffect i s t := by
  rcases exec_next_cases h with ⟨-, rfl⟩ | ⟨e, rfl⟩
  · exact finished_unitEffect i s
  · exact .raised e

/-! ### Frames and the latch -/

/-- Settles O14: a command that raises leaves `ERR` to `State.raise`, one that answers `OK` leaves it as it is, and of
these only `SYS_RESET` clears it. -/
theorem latchKeepsTheFirstError : Obligations.LatchKeepsTheFirstError := by
  intro i s t e hexec hrsp
  cases exec_unitEffect hexec with
  | raised e' | generatorRaised _ _ e' =>
    obtain rfl : e' = e := by simpa using hrsp
    exact ⟨fun hlatched => .inl (by simp [hlatched]), fun hclear => by simp [hclear]⟩
  | reset arg inp hi =>
    obtain rfl : Status.ok = e := by simpa using hrsp
    exact ⟨fun _ => .inr ⟨rfl, arg, inp, hi, rfl⟩, fun _ => rfl⟩
  | status | session | cipher | generator =>
    obtain rfl : Status.ok = e := by simpa using hrsp
    exact ⟨fun _ => .inl rfl, id⟩

/-- Settles O17: each effect writes the fields of one unit, and its opcode says which. -/
theorem unitsDoNotTouchEachOther : Obligations.UnitsDoNotTouchEachOther := by
  intro i s t hexec hnoReset
  cases exec_unitEffect hexec with
  | raised | status => exact ⟨fun _ _ => ⟨rfl, rfl, rfl⟩, fun _ => ⟨rfl, rfl, rfl⟩, fun _ => ⟨rfl, rfl⟩⟩
  | reset arg inp hi => exact absurd (by rw [hi]; rfl) hnoReset
  | session hop =>
    refine ⟨fun hhash hmac => ?_, fun _ => ⟨rfl, rfl, rfl⟩, fun _ => ⟨rfl, rfl⟩⟩
    exact absurd hop (not_or.2 ⟨hhash, hmac⟩)
  | cipher hop => exact ⟨fun _ _ => ⟨rfl, rfl, rfl⟩, fun hciph => absurd hop hciph, fun _ => ⟨rfl, rfl⟩⟩
  | generator hop | generatorRaised hop =>
    exact ⟨fun _ _ => ⟨rfl, rfl, rfl⟩, fun _ => ⟨rfl, rfl, rfl⟩, fun hprg => absurd hop hprg⟩

/-- Settles O18: no effect writes the queues of the ports, that of `SYS_RESET` included. -/
theorem noCommandTouchesWhatTheHostIssuesNext : Obligations.NoCommandTouchesWhatTheHostIssuesNext := by
  intro i s t hexec
  cases exec_unitEffect hexec <;> exact ⟨rfl, rfl⟩

/-- No check looks at the latch. -/
theorem checks_withErr (i : Instr) (s : State) (e : Status) : i.checks { s with err := e } = i.checks s := by
  cases i <;> rfl

/-- What the generator serves is answered alike whatever the latch holds. -/
theorem serve_withErr (s : State) (e : Status) (r : Served (List Byte)) :
    ∃ e', ({ s with err := e } : State).serve r = { s.serve r with err := e' } := by
  cases r with
  | done out g => exact ⟨e, rfl⟩
  | raised e₁ g => exact ⟨_, rfl⟩

/-- The state a command other than `SYS_STATUS` ends in depends on the latch in the latch at most. -/
theorem finished_withErr {i : Instr} (s : State) (e : Status) (hop : i.opcode ≠ 0x02) :
    ∃ e', i.finished { s with err := e } = { i.finished s with err := e' } := by
  cases i with
  | sysReset arg inp => exact ⟨.ok, rfl⟩
  | sysStatus arg inp => exact absurd rfl hop
  | ciphBlock arg inp =>
    cases hx : s.cs.x with
    | true => exact ⟨if e = .ok then .eExhausted else e, by simp [Instr.finished, hx, State.raise]⟩
    | false => exact ⟨e, by simp [Instr.finished, hx, State.respond]⟩
  | prgFill | prgRand8 | prgRand16 | prgRand32 | prgRand64 | prgUniform8 | prgUniform16 | prgUniform32 | prgUniform64 =>
    exact serve_withErr s e _
  | _ => exact ⟨e, rfl⟩

/-- Settles O19: the same check fails in both runs, or none does and the states the command ends in agree but for the
latch. -/
theorem latchDoesNotInfluenceCommands : Obligations.LatchDoesNotInfluenceCommands := by
  intro i s t e hexec hop
  rw [exec_eq_guarded] at hexec ⊢
  rw [checks_withErr]
  cases hcheck : firstError (i.checks s) with
  | none =>
    rw [State.guarded_of_none _ hcheck] at hexec ⊢
    cases hexec
    obtain ⟨e', he'⟩ := finished_withErr s e hop
    exact ⟨e', by rw [he']⟩
  | some e₁ =>
    rw [State.guarded_of_some _ hcheck] at hexec ⊢
    cases hexec
    exact ⟨_, rfl⟩

/-! ### The conditions of a command boundary, unit by unit -/

/-- A hash session at a command boundary (R27 (b), (c)). -/
structure HashSession.Tidy (hs : HashSession) : Prop where
  zeroTail : ∀ i : Fin 128, hs.n ≤ i → hs.buf[i] = 0
  wholeBlocks : hs.bits.toNat % 1024 = 0

/-- The words 0 to 3 of a cipher context are the constants (R28). -/
def CipherCtx.HasConstants (c : CipherCtx) : Prop := ∀ i : Fin 4, c.s[i.val] = cipherConstants[i]

/-- A seeded generator at a command boundary (R28, R33 (b)). -/
structure Generator.Tidy (g : Generator) : Prop where
  servedZeroed : ∀ i : Fin 64, i.val < g.off.val → g.buf[i] = 0
  constants : g.c.HasConstants

/-- What the hash session, its mode and the key register keep (R26, R27). -/
structure SessionInv (m : HMode) (hs : HashSession) (key : Vector Byte 128) : Prop where
  keyOnlyInMacSession : m ≠ .mac → key = keyWiped
  tidy : hs.Tidy
  idleWiped : m = .idle → hs = HashSession.wiped

/-- What the cipher context keeps (R28). -/
def CipherInv (ck : Bool) (c : CipherCtx) : Prop := ck = true → c.HasConstants

/-- What the generator keeps (R28, R33). -/
structure GeneratorInv (gsd : Bool) (g : Generator) : Prop where
  unseededZero : gsd = false → g = Generator.wiped
  seededTidy : gsd = true → g.Tidy

/-- The conditions of a command boundary speak of one unit each. -/
theorem State.inv_iff (s : State) :
    s.Inv ↔ SessionInv s.hmode s.hs s.macKey ∧ CipherInv s.ck s.cs ∧ GeneratorInv s.gsd s.gs := by
  constructor
  · intro h
    exact ⟨⟨h.keyOnlyInMacSession, ⟨h.zeroTail, h.wholeBlocks⟩, h.idleWiped⟩, h.constantsLoaded,
      ⟨h.unseededZero, fun hg => ⟨h.servedZeroed hg, h.generatorConstants hg⟩⟩⟩
  · rintro ⟨hsession, hcipher, hgen⟩
    exact ⟨hsession.keyOnlyInMacSession, hsession.tidy.zeroTail, hsession.tidy.wholeBlocks, hsession.idleWiped,
      hcipher, hgen.unseededZero, fun hg => (hgen.seededTidy hg).servedZeroed,
      fun hg => (hgen.seededTidy hg).constants⟩

/-! ### The hash session -/

theorem HashSession.wiped_tidy : HashSession.wiped.Tidy :=
  ⟨fun i _ => by simp [HashSession.wiped], rfl⟩

theorem initSession_tidy : initSession.Tidy :=
  ⟨fun i _ => by simp [initSession], rfl⟩

/-- A byte that stays in the buffer stands before the tail; a full block is counted whole and leaves a cleared
buffer. -/
theorem HashSession.Tidy.absorbByte {hs : HashSession} (h : hs.Tidy) (b : Byte) : (absorbByte hs b).Tidy := by
  by_cases hroom : hs.n.val + 1 < 128
  · rw [absorbByte_of_room b hroom]
    refine ⟨fun i hi => ?_, h.wholeBlocks⟩
    have hlt : hs.n.val < i.val := hi
    have hzero := h.zeroTail i (Fin.le_def.2 hlt.le)
    simpa [Vector.getElem_set, hlt.ne] using hzero
  · rw [absorbByte_of_full b hroom]
    refine ⟨fun i _ => by simp, ?_⟩
    have hbits := h.wholeBlocks
    have hblock : (1024 : Word64).toNat = 1024 := rfl
    rw [BitVec.toNat_add, hblock]
    omega

theorem HashSession.Tidy.absorb {hs : HashSession} (h : hs.Tidy) (data : List Byte) : (absorb data hs).Tidy := by
  induction data generalizing hs with
  | nil => exact h
  | cons b bs ih => exact ih (h.absorbByte b)

/-- With no session open everything is wiped. -/
theorem sessionInv_idle : SessionInv .idle HashSession.wiped keyWiped :=
  ⟨fun _ => rfl, HashSession.wiped_tidy, fun _ => rfl⟩

/-- An open session takes any payload. -/
theorem SessionInv.absorb {m : HMode} {hs : HashSession} {key : Vector Byte 128} (h : SessionInv m hs key)
    (hopen : m ≠ .idle) (data : List Byte) : SessionInv m (absorb data hs) key :=
  ⟨h.keyOnlyInMacSession, h.tidy.absorb data, fun hm => absurd hm hopen⟩

/-! ### Cipher contexts -/

/-- `Increment` leaves the words that hold no counter. -/
theorem increment_getElem (c : CipherCtx) (i : Nat) (hi : i < 16) (h : i < 12 ∨ i = 15) :
    (increment c).s[i] = c.s[i] := by
  have h12 : 12 ≠ i := by omega
  have h13 : 13 ≠ i := by omega
  have h14 : 14 ≠ i := by omega
  unfold increment
  dsimp only
  split_ifs <;> simp [h12, h13, h14]

theorem CipherCtx.HasConstants.increment {c : CipherCtx} (h : c.HasConstants) : (increment c).HasConstants := by
  intro i
  rw [increment_getElem c i.val (by omega) (by omega)]
  exact h i

theorem keySetup_hasConstants (c : CipherCtx) (key : List Byte) : (keySetup c key).HasConstants := by
  intro i
  simp [keySetup]

theorem CipherCtx.HasConstants.nonceSetup {c : CipherCtx} (h : c.HasConstants) (nonce : List Byte) :
    (nonceSetup c nonce).HasConstants := by
  intro i
  have hlt := i.isLt
  have hword := h i
  simpa [Machine.nonceSetup, Vector.getElem_set, show 12 ≠ i.val by omega, show 13 ≠ i.val by omega,
    show 14 ≠ i.val by omega, show 15 ≠ i.val by omega] using hword

/-! ### The generator -/

/-- The generator as a procedure leaves it, whether it ended with a value or by raising. -/
def Served.gen {α : Type} : Served α → Generator
  | .done _ g => g
  | .raised _ g => g

@[simp] theorem Served.gen_map {α β : Type} (f : α → β) (r : Served α) : (r.map f).gen = r.gen := by
  cases r <;> rfl

/-- A generator of whose buffer nothing has been consumed. -/
theorem Generator.tidy_of_unconsumed {c : CipherCtx} (hc : c.HasConstants) (buf : Vector Byte 64) :
    ({ c := c, buf := buf, off := 0 } : Generator).Tidy :=
  ⟨fun i hi => by simp at hi, hc⟩

theorem Generator.Tidy.refill {g g' : Generator} (h : g.Tidy) (hr : refill g = .ok g') : g'.Tidy := by
  rcases refill_cases g with ⟨-, heq⟩ | ⟨-, -, heq⟩ | ⟨-, -, heq⟩
  · rw [heq] at hr
    cases hr
    exact h
  · rw [heq] at hr
    cases hr
  · rw [heq] at hr
    cases hr
    exact Generator.tidy_of_unconsumed h.constants.increment _

@[simp] theorem takeBuffered_c (j : Nat) (g : Generator) : (takeBuffered j g).2.c = g.c := by
  simp [takeBuffered]

/-- The offset goes past the bytes taken; it has room for as many as the buffer holds. -/
theorem takeBuffered_off {j : Nat} {g : Generator} (hj : j ≤ 64 - g.off.val) :
    (takeBuffered j g).2.off.val = g.off.val + j := by
  have hoff : g.off.val + j < 65 := by omega
  simp [takeBuffered, Nat.mod_eq_of_lt hoff]

/-- The bytes the offset has gone past are zero: those taken before, and those taken now. -/
theorem Generator.Tidy.takeBuffered {g : Generator} (h : g.Tidy) {j : Nat} (hj : j ≤ 64 - g.off.val) :
    (takeBuffered j g).2.Tidy := by
  refine ⟨fun i hi => ?_, by simpa using h.constants⟩
  have hlt : i.val < g.off.val + j := by rwa [takeBuffered_off hj] at hi
  by_cases hserved : i.val < g.off.val
  · have hzero := h.servedZeroed i hserved
    simpa [Machine.takeBuffered, hserved.not_ge] using hzero
  · simp [Machine.takeBuffered, zeros, hlt, Nat.le_of_not_lt hserved]

theorem Generator.Tidy.fillLoop {g : Generator} (h : g.Tidy) (turns k : Nat) (out : List Byte) :
    (fillLoop turns k out g).gen.Tidy := by
  induction turns generalizing k out g with
  | zero => exact h
  | succ turns ih =>
    by_cases hk : k = 0
    · simpa [hk, Served.gen] using h
    · rw [fillLoop_turn _ _ hk]
      cases hr : Machine.refill g with
      | error e => exact h
      | ok g' => exact ih ((h.refill hr).takeBuffered (Nat.min_le_right _ _)) _ _

theorem Generator.Tidy.fill {g : Generator} (h : g.Tidy) (k : Nat) : (fill k g).gen.Tidy := h.fillLoop k k []

theorem Generator.Tidy.rand {g : Generator} (h : g.Tidy) (w : Nat) : (rand w g).gen.Tidy := by
  simpa [Machine.rand] using h.fill (w / 8)

theorem Generator.Tidy.drawLoop {g : Generator} (h : g.Tidy) (w ub t draws : Nat) :
    (drawLoop w ub t draws g).gen.Tidy := by
  induction draws generalizing g with
  | zero => exact h
  | succ draws ih =>
    have hrand := h.rand w
    unfold Machine.drawLoop
    cases hr : Machine.rand w g with
    | raised e g' => simpa [hr] using hrand
    | done r g' =>
      have htidy : g'.Tidy := by simpa [hr, Served.gen] using hrand
      dsimp only
      split
      · exact htidy
      · exact ih htidy

theorem Generator.Tidy.uniform {g : Generator} (h : g.Tidy) (w ub : Nat) : (uniform w ub g).gen.Tidy := by
  unfold Machine.uniform
  split
  · exact h
  · exact h.drawLoop _ _ _ _

/-- A seed loads the constants and leaves nothing consumed, whatever the generator held. -/
theorem seededGenerator_tidy (inp : List Byte) (g : Generator) : (seededGenerator inp g).Tidy := by
  have hconstants : (seedContext inp g.c).HasConstants := (keySetup_hasConstants _ _).nonceSetup _
  exact Generator.tidy_of_unconsumed hconstants.increment _

@[simp] theorem stirGenerator_buf (inp : List Byte) (g : Generator) : (stirGenerator inp g).buf = g.buf := by
  simp [stirGenerator]

@[simp] theorem stirGenerator_off (inp : List Byte) (g : Generator) : (stirGenerator inp g).off = g.off := by
  simp [stirGenerator]

/-- A stir touches neither the buffer nor the constants. -/
theorem Generator.Tidy.stirGenerator {g : Generator} (h : g.Tidy) (inp : List Byte) :
    (stirGenerator inp g).Tidy := by
  refine ⟨by simpa using h.servedZeroed, fun i => ?_⟩
  have hlt := i.isLt
  have hword := h.constants i
  simpa [Machine.stirGenerator, show ¬ 4 ≤ i.val by omega, show ¬ 14 ≤ i.val by omega] using hword

/-- A seeded generator that is tidy meets its condition. -/
theorem Generator.Tidy.inv {g : Generator} (h : g.Tidy) {gsd : Bool} (hseeded : gsd = true) : GeneratorInv gsd g :=
  ⟨fun hg => absurd (hseeded.symm.trans hg) (by decide), fun _ => h⟩

/-! ### Every step keeps the conditions -/

theorem State.Inv.raise {s : State} (h : s.Inv) (e : Status) : (s.raise e).Inv :=
  (State.inv_iff _).2 ((State.inv_iff s).1 h)

theorem State.Inv.respond {s : State} (h : s.Inv) (out : List Byte) : (s.respond out).Inv :=
  (State.inv_iff _).2 ((State.inv_iff s).1 h)

/-- Taking a frame or an assertion of the reset input from the ports. -/
theorem State.Inv.withPorts {s : State} (h : s.Inv) (cmd : List PortEvent) (din : List Byte) :
    ({ s with cmd := cmd, din := din } : State).Inv :=
  (State.inv_iff _).2 ((State.inv_iff s).1 h)

theorem State.Inv.withSession {s : State} (h : s.Inv) {m : HMode} {hs : HashSession} {key : Vector Byte 128}
    (hsession : SessionInv m hs key) : ({ s with hs := hs, hmode := m, macKey := key } : State).Inv :=
  (State.inv_iff _).2 ⟨hsession, ((State.inv_iff s).1 h).2⟩

theorem State.Inv.withCipher {s : State} (h : s.Inv) {c : CipherCtx} {ck cn : Bool} (hcipher : CipherInv ck c) :
    ({ s with cs := c, ck := ck, cn := cn } : State).Inv :=
  have ⟨hsession, _, hgen⟩ := (State.inv_iff s).1 h
  (State.inv_iff _).2 ⟨hsession, hcipher, hgen⟩

theorem State.Inv.withGenerator {s : State} (h : s.Inv) {g : Generator} {gsd : Bool} (hgen : GeneratorInv gsd g) :
    ({ s with gs := g, gsd := gsd } : State).Inv :=
  have ⟨hsession, hcipher, _⟩ := (State.inv_iff s).1 h
  (State.inv_iff _).2 ⟨hsession, hcipher, hgen⟩

/-- A seeded machine serves from the generator, or is exhausted. -/
theorem State.Inv.serve {s : State} (h : s.Inv) (hseeded : s.gsd = true) {r : Served (List Byte)}
    (hr : s.gs.Tidy → r.gen.Tidy) : (s.serve r).Inv := by
  have htidy : s.gs.Tidy := ((State.inv_iff s).1 h).2.2.seededTidy hseeded
  have hgen : GeneratorInv s.gsd r.gen := (hr htidy).inv hseeded
  cases r with
  | done out g => exact (h.withGenerator hgen).respond out
  | raised e g => exact (h.withGenerator hgen).raise e

/-- A command whose check of the session mode passed runs in that mode. -/
theorem hmode_of_passed {i : Instr} {s : State} {m : HMode} (hpass : firstError (i.checks s) = none)
    (hmem : modeIs m s ∈ i.checks s) : s.hmode = m := by
  simpa [modeIs] using (firstError_eq_none _).1 hpass _ hmem

/-- A command whose check of the seed passed runs on a seeded generator. -/
theorem gsd_of_passed {i : Instr} {s : State} (hpass : firstError (i.checks s) = none)
    (hmem : seeded s ∈ i.checks s) : s.gsd = true := by
  simpa [seeded] using (firstError_eq_none _).1 hpass _ hmem

/-- Settles O11: at reset every unit is wiped, unkeyed and unseeded. -/
theorem resetMeetsTheBoundaryConditions : Obligations.ResetMeetsTheBoundaryConditions := by
  unfold Obligations.ResetMeetsTheBoundaryConditions
  exact (State.inv_iff _).2 ⟨sessionInv_idle, nofun, fun _ => rfl, nofun⟩

/-- What is cleared meets the conditions as reset does, whatever was there before. -/
theorem State.clear_inv (s : State) : s.clear.Inv :=
  (State.inv_iff _).2 ((State.inv_iff State.reset).1 resetMeetsTheBoundaryConditions)

theorem State.hardwareReset_inv (s : State) : s.hardwareReset.Inv :=
  (State.inv_iff _).2 ((State.inv_iff s.clear).1 s.clear_inv)

/-- A command that passes its checks keeps the conditions: it leaves its own unit in order and the others alone. -/
theorem State.Inv.finished {i : Instr} {s : State} (h : s.Inv) (hpass : firstError (i.checks s) = none) :
    (i.finished s).Inv := by
  obtain ⟨hsession, hcipher, hgen⟩ := (State.inv_iff s).1 h
  cases i with
  | sysReset arg inp => exact s.clear_inv.respond _
  | sysStatus arg inp => exact h.respond _
  | hashInit arg inp => exact (h.withSession ⟨fun _ => rfl, initSession_tidy, fun hm => by cases hm⟩).respond _
  | hashUpdate arg inp =>
    have hmode : s.hmode = .hash := hmode_of_passed hpass (by simp [Instr.checks])
    exact (h.withSession (hsession.absorb (by simp [hmode]) inp)).respond _
  | hashFinal outlen inp =>
    have hmode : s.hmode = .hash := hmode_of_passed hpass (by simp [Instr.checks])
    have hkey : s.macKey = keyWiped := hsession.keyOnlyInMacSession (by simp [hmode])
    exact (h.withSession (hkey ▸ sessionInv_idle)).respond _
  | macUpdate arg inp =>
    have hmode : s.hmode = .mac := hmode_of_passed hpass (by simp [Instr.checks])
    exact (h.withSession (hsession.absorb (by simp [hmode]) inp)).respond _
  | macInit arg inp =>
    exact (h.withSession ⟨fun hm => absurd rfl hm, initSession_tidy.absorb _, fun hm => by cases hm⟩).respond _
  | hashOneshot outlen inp | macFinal outlen inp | macVerify outlen inp =>
    exact (h.withSession sessionInv_idle).respond _
  | ciphKey arg inp => exact (h.withCipher fun _ => keySetup_hasConstants _ _).respond _
  | ciphNonce arg inp => exact (h.withCipher fun hck => (hcipher hck).nonceSetup _).respond _
  | ciphBlock arg inp =>
    simp only [Instr.finished]
    split
    · exact h.raise _
    · exact (h.withCipher fun hck => (hcipher hck).increment).respond _
  | prgSeed arg inp => exact (h.withGenerator ((seededGenerator_tidy _ _).inv rfl)).respond _
  | prgStir arg inp =>
    have hseeded : s.gsd = true := gsd_of_passed hpass (by simp [Instr.checks])
    exact (h.withGenerator (((hgen.seededTidy hseeded).stirGenerator inp).inv hseeded)).respond _
  | prgFill arg len => exact h.serve (gsd_of_passed hpass (by simp [Instr.checks])) (·.fill _)
  | prgRand8 inp | prgRand16 inp | prgRand32 inp | prgRand64 inp =>
    exact h.serve (gsd_of_passed hpass (by simp [Instr.checks])) fun hg => by simpa using hg.rand _
  | prgUniform8 inp | prgUniform16 inp | prgUniform32 inp | prgUniform64 inp =>
    exact h.serve (gsd_of_passed hpass (by simp [Instr.checks])) fun hg => by simpa using hg.uniform _ _

/-- Every command keeps the conditions of a command boundary, whatever its outcome. -/
theorem State.Inv.exec {i : Instr} {s t : State} (h : s.Inv) (hexec : exec i s = .next t) : t.Inv := by
  rcases exec_next_cases hexec with ⟨hpass, rfl⟩ | ⟨e, rfl⟩
  · exact h.finished hpass
  · exact h.raise e

/-- Settles O10: a step does nothing, clears the state, executes a command, or ends an undefined word with an error. -/
theorem stepKeepsTheBoundaryConditions : Obligations.StepKeepsTheBoundaryConditions := by
  intro s s' hinv hstep
  rcases step_cases s with ⟨-, heq⟩ | ⟨rest, -, heq⟩ |
    ⟨cw, rest, -, ⟨i, -, heq⟩ | ⟨-, heq⟩ | ⟨e, -, -, heq⟩⟩ <;> rw [heq] at hstep
  · cases hstep
    exact hinv
  · cases hstep
    exact State.hardwareReset_inv _
  · exact (hinv.withPorts _ _).exec hstep
  · cases hstep
  · cases hstep
    exact (hinv.withPorts _ _).raise _

/-! ### Reset -/

/-- Settles O9: every array of the reset state is a replicated zero, and `STATUS` is put together from cleared flags. -/
theorem resetStateIsAllZero : Obligations.ResetStateIsAllZero := by
  simp [Obligations.ResetStateIsAllZero, State.statusReg, HMode.code, Status.code, State.reset,
    HashSession.wiped, CipherCtx.wiped, Generator.wiped, keyWiped]

end Sys2Proof.Machine
end

section
/-! SUPPORT. The statements about the ports (20_memory.md): the frame a step takes from them, when its payload is
complete and when it is not. -/

namespace Sys2Proof

/-- Only a payload of the length the word announces decodes to a command (R52). -/
theorem length_of_decode_ok {cw : Word32} {inp : List Byte} {i : Instr} (h : decode cw inp = .ok i) :
    inp.length = inLen cw := by
  by_contra hne
  rw [decode_wrong_length hne] at h
  cases h

end Sys2Proof

namespace Sys2Proof.Machine

/-- A payload of the announced length at the head of `DIN` is the one fetched, and what follows it is left there. -/
theorem State.fetch_completeFrame {s : State} {cw : Word32} {rest : List PortEvent} {inp din : List Byte}
    (hcmd : s.cmd = .command cw :: rest) (hdin : s.din = inp ++ din) (hlen : inp.length = inLen cw) :
    s.fetch = .frame cw inp { s with cmd := rest, din := din } := by
  rw [State.fetch_command hcmd, hdin, List.take_left' hlen, List.drop_left' hlen]

/-- Settles O4: a payload that decodes has the announced length, so the step fetches exactly that frame. -/
theorem stepRunsTheDecodedCommand : Obligations.StepRunsTheDecodedCommand := by
  intro s cw rest inp din i hcmd hdin hdec
  have hfetch := State.fetch_completeFrame hcmd hdin (length_of_decode_ok hdec)
  simp only [step, hfetch, hdec]

/-- Settles O8: of too few bytes the fetch takes all there are, still fewer than announced, which the decoder rejects. -/
theorem shortPayloadIsRefused : Obligations.ShortPayloadIsRefused := by
  intro s cw rest hcmd hshort
  have hlen : (s.din.take (inLen cw)).length ≠ inLen cw :=
    ((List.length_take_le' _ _).trans_lt hshort).ne
  simp only [step, State.fetch_command hcmd, decode_wrong_length hlen]

end Sys2Proof.Machine
end

section
/-! SUPPORT. The statements about the encoding (30_encoding.md): a command and its frame determine each other, a word
that is no command ends with `E_ILLEGAL`, and what every command answers.

The decoder is read twice: `Instr.decodeFields_fields` reads a command back from its own fields, and
`decodeFields_cases` says everything the decoder can answer. -/

namespace Sys2Proof

open Sys2Proof.Machine

/-! ### The command word and its fields -/

/-- A command word is made of its three fields and nothing else (R76). -/
@[simp] theorem commandWord_fields (cw : Word32) : commandWord (opcodeOf cw) (argOf cw) (lenOf cw) = cw := by
  apply BitVec.eq_of_getLsbD_eq
  intro i hi
  interval_cases i <;> simp [commandWord, opcodeOf, argOf, lenOf]

/-- Every opcode but that of `PRG_FILL` announces `LEN` payload bytes (R80). -/
theorem inLen_of_opcode_ne {cw : Word32} (h : opcodeOf cw ≠ 0x42) : inLen cw = (lenOf cw).toNat := if_neg h

/-- `PRG_FILL` announces no payload (R80). -/
theorem inLen_of_opcode_eq {cw : Word32} (h : opcodeOf cw = 0x42) : inLen cw = 0 := if_pos h

/-! ### The fields of a command -/

/-- The `LEN` of every command but `PRG_FILL` is the length of its payload (R80). -/
theorem Instr.len_of_opcode_ne {i : Instr} (h : i.opcode ≠ 0x42) : i.len = BitVec.ofNat 16 i.payload.length := by
  cases i with
  | prgFill arg len => exact absurd rfl h
  | _ => rfl

/-- `PRG_FILL` has no payload (R80). -/
theorem Instr.payload_of_opcode_eq {i : Instr} (h : i.opcode = 0x42) : i.payload = [] := by
  cases i with
  | prgFill arg len => rfl
  | _ => simp [Instr.opcode] at h

/-- The opcode of a command is one of the table of R81. -/
theorem Instr.opcode_mem_table (i : Instr) :
    i.opcode ∈ ([0x01, 0x02, 0x10, 0x11, 0x12, 0x13, 0x20, 0x21, 0x22, 0x23, 0x30, 0x31, 0x32, 0x40, 0x41, 0x42,
      0x43, 0x44] : List Byte) := by
  cases i <;> simp [Instr.opcode]

/-- The `WSEL` of an accessor and of a uniform command is at most 3 (R79). -/
theorem Instr.wsel_le {i : Instr} (h : i.opcode = 0x43 ∨ i.opcode = 0x44) : i.arg.toNat ≤ 3 := by
  cases i with
  | prgRand8 | prgRand16 | prgRand32 | prgRand64 | prgUniform8 | prgUniform16 | prgUniform32 | prgUniform64 =>
    simp [Instr.arg]
  | _ => simp [Instr.opcode] at h

/-- The word of a well-formed command announces the payload the command has (R80). -/
theorem Instr.inLen_commandWord {i : Instr} (h : i.wellFormed) :
    inLen (commandWord i.opcode i.arg i.len) = i.payload.length := by
  by_cases hop : i.opcode = 0x42
  · rw [inLen_of_opcode_eq (by simpa using hop), Instr.payload_of_opcode_eq hop, List.length_nil]
  · rw [inLen_of_opcode_ne (by simpa using hop), lenOf_commandWord, Instr.len_of_opcode_ne hop, BitVec.toNat_ofNat,
      Nat.mod_eq_of_lt h]

/-! ### The decoder -/

open Laws in
/-- The decoder reads every command back from its own fields (R81). -/
theorem Instr.decodeFields_fields : ∀ i : Instr, decodeFields i.opcode i.arg i.len i.payload = .ok i
  | .sysReset arg inp => DecodesBack.sysReset arg inp
  | .sysStatus arg inp => DecodesBack.sysStatus arg inp
  | .hashInit arg inp => DecodesBack.hashInit arg inp
  | .hashUpdate arg inp => DecodesBack.hashUpdate arg inp
  | .hashFinal outlen inp => DecodesBack.hashFinal outlen inp
  | .hashOneshot outlen inp => DecodesBack.hashOneshot outlen inp
  | .macInit arg inp => DecodesBack.macInit arg inp
  | .macUpdate arg inp => DecodesBack.macUpdate arg inp
  | .macFinal outlen inp => DecodesBack.macFinal outlen inp
  | .macVerify outlen inp => DecodesBack.macVerify outlen inp
  | .ciphKey arg inp => DecodesBack.ciphKey arg inp
  | .ciphNonce arg inp => DecodesBack.ciphNonce arg inp
  | .ciphBlock arg inp => DecodesBack.ciphBlock arg inp
  | .prgSeed arg inp => DecodesBack.prgSeed arg inp
  | .prgStir arg inp => DecodesBack.prgStir arg inp
  | .prgFill arg len => DecodesBack.prgFill arg len
  | .prgRand8 inp => DecodesBack.prgRand8 inp
  | .prgRand16 inp => DecodesBack.prgRand16 inp
  | .prgRand32 inp => DecodesBack.prgRand32 inp
  | .prgRand64 inp => DecodesBack.prgRand64 inp
  | .prgUniform8 inp => DecodesBack.prgUniform8 inp
  | .prgUniform16 inp => DecodesBack.prgUniform16 inp
  | .prgUniform32 inp => DecodesBack.prgUniform32 inp
  | .prgUniform64 inp => DecodesBack.prgUniform64 inp

/-- Everything the decoder can answer: a command with the opcode and the `ARG` it was given, and with the `LEN` if it is
`PRG_FILL` and the payload otherwise; or an error that names the field at fault. -/
theorem decodeFields_cases (opcode arg : Byte) (len : BitVec 16) (inp : List Byte) :
    (∃ i, decodeFields opcode arg len inp = .ok i ∧ i.opcode = opcode ∧ i.arg = arg ∧
      (i = .prgFill arg len ∨ opcode ≠ 0x42 ∧ i.payload = inp)) ∨
    decodeFields opcode arg len inp = .error (.undefinedOpcode opcode) ∨
    decodeFields opcode arg len inp = .error (.reservedWsel arg) := by
  unfold decodeFields
  split
  case h_16 => exact .inl ⟨_, rfl, rfl, rfl, .inl rfl⟩
  case h_17 | h_18 =>
    split
    case h_5 => exact .inr (.inr rfl)
    all_goals exact .inl ⟨_, rfl, rfl, rfl, .inr ⟨by simp, rfl⟩⟩
  case h_19 => exact .inr (.inl rfl)
  all_goals exact .inl ⟨_, rfl, rfl, rfl, .inr ⟨by simp, rfl⟩⟩

/-- The command a frame decodes to has the fields of the word, and the payload of the frame if it takes one. -/
theorem fields_of_decode_ok {cw : Word32} {inp : List Byte} {i : Instr} (h : decode cw inp = .ok i) :
    i.opcode = opcodeOf cw ∧ i.arg = argOf cw ∧
      (i = .prgFill (argOf cw) (lenOf cw) ∨ opcodeOf cw ≠ 0x42 ∧ i.payload = inp) := by
  rw [decode_right_length (length_of_decode_ok h)] at h
  rcases decodeFields_cases (opcodeOf cw) (argOf cw) (lenOf cw) inp with ⟨j, hj, hfields⟩ | herr | herr
  · obtain rfl : j = i := by simpa [hj] using h
    exact hfields
  · simp [herr] at h
  · simp [herr] at h

/-- The command a frame decodes to has the `LEN` and the payload of the frame. -/
theorem operands_of_decode_ok {cw : Word32} {inp : List Byte} {i : Instr} (h : decode cw inp = .ok i) :
    i.len = lenOf cw ∧ i.payload = inp := by
  have hlength := length_of_decode_ok h
  obtain ⟨hop, -, rfl | ⟨hne, rfl⟩⟩ := fields_of_decode_ok h
  · have hempty : inp = [] := List.eq_nil_of_length_eq_zero (hlength.trans (inLen_of_opcode_eq hop.symm))
    exact ⟨rfl, hempty.symm⟩
  · rw [Instr.len_of_opcode_ne (hop ▸ hne), hlength, inLen_of_opcode_ne hne]
    exact ⟨by simp, rfl⟩

/-- No word announces more payload than the field `LEN` can (R9, R80). -/
theorem inLen_lt (cw : Word32) : inLen cw < 2 ^ Config.lenBits := by
  unfold inLen
  split
  · decide
  · exact (lenOf cw).isLt

/-! ### The frame of a command, and the command of a frame -/

/-- Settles O1: the word of a command announces the payload the command has, and holds the fields that the decoder reads
the command back from. -/
theorem decodeOfEncodeIsTheCommand : Obligations.DecodeOfEncodeIsTheCommand := by
  intro i hwf
  have hlength : i.payload.length = inLen (commandWord i.opcode i.arg i.len) := (Instr.inLen_commandWord hwf).symm
  simpa [encode, decode_right_length hlength] using i.decodeFields_fields

/-- Settles O2: the command has every field of the word, and a word is made of its fields. -/
theorem encodeOfDecodeIsTheFrame : Obligations.EncodeOfDecodeIsTheFrame := by
  intro cw inp i hdec
  obtain ⟨hop, harg, -⟩ := fields_of_decode_ok hdec
  obtain ⟨hlen, hpayload⟩ := operands_of_decode_ok hdec
  refine ⟨?_, ?_⟩
  · rw [encode, hop, harg, hlen, hpayload, commandWord_fields]
  · rw [Instr.wellFormed, hpayload, length_of_decode_ok hdec]
    exact inLen_lt cw

/-- Settles O3: each printed word announces the payload beside it, and its opcode and `ARG` select the command. -/
theorem printedWordsDecodeToTheirCommands : Obligations.PrintedWordsDecodeToTheirCommands := by
  refine ⟨?_, ?_, ?_, ?_, ?_, ?_, ?_, ?_, ?_, ?_, ?_, ?_, ?_, ?_, ?_⟩ <;> rfl

end Sys2Proof

namespace Sys2Proof.Machine

/-! ### Words that are no command -/

/-- A frame with its whole payload that the decoder does not read as a command ends with `E_ILLEGAL` (R82, R83). -/
theorem step_of_noCommand {s : State} {cw : Word32} {rest : List PortEvent} (hcmd : s.cmd = .command cw :: rest)
    (henough : inLen cw ≤ s.din.length) (hnone : ∀ i, decode cw (s.din.take (inLen cw)) ≠ .ok i) :
    step s = .next ({ s with cmd := rest, din := s.din.drop (inLen cw) }.raise .eIllegal) := by
  have hdec := decode_right_length (List.length_take_of_le henough)
  simp only [step, State.fetch_command hcmd]
  rcases decodeFields_cases (opcodeOf cw) (argOf cw) (lenOf cw) (s.din.take (inLen cw)) with
    ⟨i, hi, -⟩ | herr | herr
  · exact absurd (hdec.trans hi) (hnone i)
  · rw [hdec, herr]
  · rw [hdec, herr]

/-- Settles O5: the opcode of a command is one of the table and its `WSEL`, if it has one, is at most 3, so neither kind
of word decodes to a command. -/
theorem stepOfAnUndefinedWordIsIllegal : Obligations.StepOfAnUndefinedWordIsIllegal := by
  intro s cw rest hcmd henough hword
  refine step_of_noCommand hcmd henough fun i hdec => ?_
  obtain ⟨hop, harg, -⟩ := fields_of_decode_ok hdec
  rw [← hop, ← harg] at hword
  rcases hword with hundefined | ⟨hselects, hwsel⟩
  · exact hundefined i.opcode_mem_table
  · exact absurd (Instr.wsel_le hselects) hwsel.not_ge

/-! ### The answer of a command -/

/-- A response of `OK` with `n` bytes of output, or of an error with none (R85). -/
def State.Answered (n : Nat) (t : State) : Prop :=
  t.rsp = some .ok ∧ t.dout.length = n ∨ ∃ e, e ≠ .ok ∧ t.rsp = some e ∧ t.dout = []

theorem State.answered_raise (s : State) {e : Status} (he : e ≠ .ok) (n : Nat) : (s.raise e).Answered n :=
  .inr ⟨e, he, rfl, rfl⟩

theorem State.answered_respond (s : State) {out : List Byte} {n : Nat} (hout : out.length = n) :
    (s.respond out).Answered n := .inl ⟨rfl, hout⟩

/-- What a procedure on the generator must end with to answer `n` bytes: exactly these, or an error. -/
def Served.Answers (n : Nat) : Served (List Byte) → Prop
  | .done out _ => out.length = n
  | .raised e _ => e ≠ .ok

theorem State.answered_serve (s : State) {n : Nat} {r : Served (List Byte)} (h : r.Answers n) :
    (s.serve r).Answered n := by
  cases r with
  | done out g => exact State.answered_respond _ h
  | raised e g => exact State.answered_raise _ h n

/-- `Rand` raises nothing but `E_EXHAUSTED`, and leaves an empty buffer and the flag set. -/
theorem rand_raised {w : Nat} {e : Status} {g g' : Generator} (h : rand w g = .raised e g') :
    e = .eExhausted ∧ g'.off.val = 64 ∧ g'.c.x = true := by
  unfold rand at h
  cases hfill : fill (w / 8) g with
  | done out g₁ => simp [hfill] at h
  | raised e₁ g₁ =>
    simp only [hfill, Served.map_raised, Served.raised.injEq] at h
    obtain ⟨rfl, rfl⟩ := h
    exact fillLoop_raised hfill

/-- The rejection loop raises nothing but `E_EXHAUSTED`. -/
theorem drawLoop_raised {w ub t draws : Nat} {e : Status} {g g' : Generator}
    (h : drawLoop w ub t draws g = .raised e g') : e = .eExhausted := by
  induction draws generalizing g with
  | zero =>
    simp only [drawLoop, Served.raised.injEq] at h
    exact h.1.symm
  | succ draws ih =>
    unfold drawLoop at h
    cases hr : rand w g with
    | raised e₁ g₁ =>
      simp only [hr, Served.raised.injEq] at h
      exact h.1 ▸ (rand_raised hr).1
    | done r g₁ =>
      simp only [hr] at h
      split at h
      · cases h
      · exact ih h

/-- `Uniform` raises nothing but `E_EXHAUSTED`. -/
theorem uniform_raised {w ub : Nat} {e : Status} {g g' : Generator} (h : uniform w ub g = .raised e g') :
    e = .eExhausted := by
  unfold uniform at h
  split at h
  · cases h
  · exact drawLoop_raised h

/-- A fill answers the bytes requested. -/
theorem fill_answers (k : Nat) (g : Generator) : (fill k g).Answers k := by
  cases h : fill k g with
  | done out g' => exact fill_done_length h
  | raised e g' =>
    obtain ⟨rfl, -, -⟩ := fillLoop_raised h
    exact nofun

/-- A number put out as `n` bytes, by a procedure that raises nothing but `E_EXHAUSTED`, answers `n` bytes. -/
theorem Served.map_leBytes_answers {r : Served Nat} (h : ∀ e g, r = .raised e g → e = .eExhausted) (n : Nat) :
    (r.map (leBytes n)).Answers n := by
  cases r with
  | done a g => exact leBytes_length n a
  | raised e g =>
    obtain rfl := h e g rfl
    exact nofun

/-- No check reports `OK`. -/
theorem checks_status_ne_ok (i : Instr) (s : State) : ∀ c ∈ i.checks s, c.2 ≠ .ok := by
  cases i <;> simp [Instr.checks, argZero, outlenMax, outlenMin, lenIs, modeIs, keyed, seeded]

/-- A command whose check of `OUTLEN` passed asks for no more bytes than a digest has. -/
theorem outlen_le_of_passed {i : Instr} {s : State} {outlen : Byte} (hpass : firstError (i.checks s) = none)
    (hmem : outlenMax outlen ∈ i.checks s) : outlen.toNat ≤ 64 := by
  simpa [outlenMax] using (firstError_eq_none _).1 hpass _ hmem

/-- A command that passes its checks answers its `out_len` bytes, unless the generator or the cipher is exhausted. -/
theorem finished_answered {i : Instr} {s : State} (hpass : firstError (i.checks s) = none) :
    (i.finished s).Answered i.outLen := by
  cases i with
  | sysReset | hashInit | hashUpdate | macInit | macUpdate | ciphKey | ciphNonce | prgSeed | prgStir =>
    exact State.answered_respond _ rfl
  | sysStatus arg inp => exact State.answered_respond _ (le32_length _)
  | hashFinal outlen inp | hashOneshot outlen inp | macFinal outlen inp =>
    have hle : outlen.toNat ≤ 64 := outlen_le_of_passed hpass (by simp [Instr.checks])
    exact State.answered_respond _ (List.length_take_of_le (by simpa using hle))
  | macVerify outlen inp => exact State.answered_respond _ (by split <;> rfl)
  | ciphBlock arg inp =>
    simp only [Instr.finished]
    split
    · exact State.answered_raise _ (by decide) _
    · exact State.answered_respond _ (block_length _)
  | prgFill arg len => exact State.answered_serve _ (fill_answers _ _)
  | prgRand8 | prgRand16 | prgRand32 | prgRand64 =>
    exact State.answered_serve _ (Served.map_leBytes_answers (fun _ _ h => (rand_raised h).1) _)
  | prgUniform8 | prgUniform16 | prgUniform32 | prgUniform64 =>
    exact State.answered_serve _ (Served.map_leBytes_answers (fun _ _ h => uniform_raised h) _)

/-- Settles O12: a command ends with the error of a check, which is not `OK`, or in its own state, which answers. -/
theorem everyCommandEndsWithItsOutputOrAnError : Obligations.EveryCommandEndsWithItsOutputOrAnError := by
  intro i s
  rw [exec_eq_guarded]
  rcases s.guarded_cases (i.checks s) (i.finished s) with ⟨hpass, hdone⟩ | ⟨e, herr, hraise⟩
  · exact ⟨_, hdone, finished_answered hpass⟩
  · obtain ⟨c, hmem, -, rfl⟩ := firstError_mem herr
    exact ⟨_, hraise, State.answered_raise _ (checks_status_ne_ok i s c hmem) _⟩

end Sys2Proof.Machine
end

section
/-! SUPPORT. The statements about the hash unit (41_hash.md): what the hash commands do to a session, how `Absorb` fills
and empties the buffer, the message schedule and the rounds, and `SHA` over the blocks of the padded message.

`Finish` never calls `Absorb`, but a session at a command boundary has a zero tail, so writing the padding into it is
absorbing the padding (`finish_eq_absorb_padding`). So `SHA` absorbs the padded message, which is whole blocks. -/

namespace Sys2Proof.Machine

/-! ### The hash commands -/

/-- A command whose checks all pass ends in its own state. -/
theorem exec_of_passed {i : Instr} {s : State} (h : firstError (i.checks s) = none) :
    exec i s = .next (i.finished s) := (exec_eq_guarded i s).trans (State.guarded_of_none _ h)

/-- A command with a check that fails ends with the first error. -/
theorem exec_of_failed {i : Instr} {s : State} {e : Status} (h : firstError (i.checks s) = some e) :
    exec i s = .next (s.raise e) := (exec_eq_guarded i s).trans (State.guarded_of_some _ h)

theorem exec_hashInit (s : State) : exec (.hashInit 0 []) s =
    .next ({ s with macKey := keyWiped, hs := initSession, hmode := .hash }.respond []) := exec_of_passed rfl

theorem exec_hashUpdate {s : State} (hmode : s.hmode = .hash) (inp : List Byte) :
    exec (.hashUpdate 0 inp) s = .next ({ s with hs := absorb inp s.hs }.respond []) :=
  exec_of_passed (by simp [Instr.checks, argZero, modeIs, hmode])

theorem exec_hashUpdate_outOfSequence {s : State} (hmode : s.hmode ≠ .hash) (inp : List Byte) :
    exec (.hashUpdate 0 inp) s = .next (s.raise .eSeq) :=
  exec_of_failed (by simp [Instr.checks, argZero, modeIs, hmode])

theorem exec_hashFinal {s : State} {outlen : Byte} (hmode : s.hmode = .hash) (hlen : outlen.toNat ≤ 64) :
    exec (.hashFinal outlen []) s =
      .next ({ s with hs := HashSession.wiped, hmode := .idle }.respond ((finish s.hs).1.take outlen.toNat)) :=
  exec_of_passed (by simp [Instr.checks, outlenMax, lenIs, modeIs, hmode, hlen])

theorem exec_hashFinal_outOfSequence {s : State} {outlen : Byte} (hmode : s.hmode ≠ .hash) (hlen : outlen.toNat ≤ 64) :
    exec (.hashFinal outlen []) s = .next (s.raise .eSeq) :=
  exec_of_failed (by simp [Instr.checks, outlenMax, lenIs, modeIs, hmode, hlen])

theorem exec_hashOneshot (s : State) {outlen : Byte} (hlen : outlen.toNat ≤ 64) (inp : List Byte) :
    exec (.hashOneshot outlen inp) s =
      .next ({ s with macKey := keyWiped, hs := HashSession.wiped, hmode := .idle }.respond
        ((sha inp).take outlen.toNat)) :=
  exec_of_passed (by simp [Instr.checks, outlenMax, hlen])

/-- A command that does not answer `OK` leaves the mode of the hash session. -/
theorem hmode_of_not_ok {i : Instr} {s t : State} (h : exec i s = .next t) (hrsp : t.rsp ≠ some .ok) :
    t.hmode = s.hmode := by
  cases exec_unitEffect h with
  | raised | generatorRaised => rfl
  | reset | status | session | cipher | generator => exact absurd rfl hrsp

/-- Settles O20: each command that completes is one of the equations above, and one that ends with an error keeps the
mode whatever its unit. -/
theorem hashCommandsMoveTheSessionMode : Obligations.HashCommandsMoveTheSessionMode := by
  refine ⟨fun s => ?init, fun s inp hmode => ?update, fun s inp hmode => ?updateFaults,
    fun s outlen hlen hmode => ?final, fun s outlen hlen hmode => ?finalFaults, fun s outlen inp hlen => ?oneshot,
    fun i s t hexec _ hrsp => ?error⟩
  case init => exact ⟨_, exec_hashInit s, rfl, rfl⟩
  case update => exact ⟨_, exec_hashUpdate hmode inp, rfl, hmode⟩
  case updateFaults => exact exec_hashUpdate_outOfSequence hmode inp
  case final => exact ⟨_, exec_hashFinal hmode hlen, rfl, rfl⟩
  case finalFaults => exact exec_hashFinal_outOfSequence hmode hlen
  case oneshot => exact ⟨_, exec_hashOneshot s hlen inp, rfl, rfl⟩
  case error => exact hmode_of_not_ok hexec hrsp

/-- Settles O27: the state `HASH_INIT` ends in, with the session of `Init` written out. -/
theorem hashInitOpensAFreshSession : Obligations.HashInitOpensAFreshSession := exec_hashInit

/-- Settles O29: the state `HASH_UPDATE` ends in. -/
theorem hashUpdateAbsorbsItsPayload : Obligations.HashUpdateAbsorbsItsPayload :=
  fun _ inp hmode => exec_hashUpdate hmode inp

/-- Settles O30: the state `HASH_FINAL` ends in. -/
theorem hashFinalOutputsAPrefixOfTheDigest : Obligations.HashFinalOutputsAPrefixOfTheDigest :=
  fun _ _ hmode hlen => exec_hashFinal hmode hlen

/-! ### Sessions of several commands -/

theorem absorb_append (x y : List Byte) (hs : HashSession) : absorb (x ++ y) hs = absorb y (absorb x hs) :=
  List.foldl_append

/-- Settles O26: `Absorb` is a fold over the bytes. -/
theorem absorbingInTwoPiecesIsAbsorbingTheWhole : Obligations.AbsorbingInTwoPiecesIsAbsorbingTheWhole :=
  fun x y hs => (absorb_append x y hs).symm

/-- A command that has a next state hands it to the commands after it. -/
theorem runSeq_cons {i : Instr} {s t : State} (h : exec i s = .next t) (is : List Instr) :
    runSeq (i :: is) s = runSeq is t := by simp [runSeq, h]

/-- Updates one after another absorb their payloads in one piece. -/
theorem runSeq_hashUpdates (chunks : List (List Byte)) (is : List Instr) {s : State} (hmode : s.hmode = .hash) :
    runSeq (chunks.map (Instr.hashUpdate 0) ++ is) (s.respond []) =
      runSeq is ({ s with hs := absorb chunks.flatten s.hs }.respond []) := by
  induction chunks generalizing s with
  | nil => rfl
  | cons c cs ih =>
    have hupdate : exec (.hashUpdate 0 c) (s.respond []) = .next ({ s with hs := absorb c s.hs }.respond []) :=
      exec_hashUpdate (s := s.respond []) hmode c
    rw [List.map_cons, List.cons_append, runSeq_cons hupdate, ih (s := { s with hs := absorb c s.hs }) hmode,
      List.flatten_cons, absorb_append]

/-- Settles O32: after `HASH_INIT` the updates absorb the whole message, and `HASH_FINAL` finishes that session. -/
theorem hashSessionAnswersTheDigestOfTheMessage : Obligations.HashSessionAnswersTheDigestOfTheMessage := by
  intro s chunks outlen hlen
  rw [runSeq_cons (exec_hashInit s), runSeq_hashUpdates chunks _ rfl, runSeq_cons (exec_hashFinal rfl hlen)]
  rfl

/-- Settles O31: the three commands are a session whose message is one piece. -/
theorem hashOneshotIsInitUpdateFinal : Obligations.HashOneshotIsInitUpdateFinal := by
  intro s outlen inp hlen
  have hsession := hashSessionAnswersTheDigestOfTheMessage s [inp] outlen hlen
  rw [List.flatten_singleton] at hsession
  exact ⟨exec_hashOneshot s hlen inp, hsession⟩

/-! ### Writes to a byte array -/

@[simp] theorem memWrite_nil {N : Nat} (B : Vector Byte N) (i : Nat) : memWrite B i [] = B := by
  refine Vector.ext fun j hj => ?_
  simp [show ¬ (i ≤ j ∧ j < i) by omega]

/-- A write of two pieces is the write of the first and of the second behind it. -/
theorem memWrite_append {N : Nat} (B : Vector Byte N) (i : Nat) (v w : List Byte) :
    memWrite B i (v ++ w) = memWrite (memWrite B i v) (i + v.length) w := by
  refine Vector.ext fun j hj => ?_
  simp only [memWrite_getElem, List.length_append]
  by_cases hfirst : j < i + v.length
  · by_cases hi : i ≤ j
    · rw [if_pos (by omega), if_neg (by omega), if_pos (by omega), List.getD_append _ _ _ _ (by omega)]
    · rw [if_neg (by omega), if_neg (by omega), if_neg (by omega)]
  · by_cases hsecond : j < i + v.length + w.length
    · rw [if_pos (by omega), if_pos (by omega), List.getD_append_right _ _ _ _ (by omega), Nat.sub_sub]
    · rw [if_neg (by omega), if_neg (by omega), if_neg (by omega)]

theorem memWrite_singleton {N : Nat} (B : Vector Byte N) {i : Nat} (hi : i < N) (b : Byte) :
    memWrite B i [b] = B.set i b := by
  refine Vector.ext fun j hj => ?_
  rw [memWrite_getElem, Vector.getElem_set]
  by_cases hij : i = j
  · subst hij
    simp
  · rw [if_neg (by simp; omega), if_neg hij]

/-- A write that begins with one byte stores it and goes on behind it. -/
theorem memWrite_cons {N : Nat} (B : Vector Byte N) {i : Nat} (hi : i < N) (b : Byte) (bs : List Byte) :
    memWrite B i (b :: bs) = memWrite (B.set i b) (i + 1) bs := by
  rw [← memWrite_singleton B hi b]
  exact memWrite_append B i [b] bs

/-- Writing zero bytes over zero bytes changes nothing. -/
theorem memWrite_zeros {N : Nat} (B : Vector Byte N) {i : Nat} (hzero : ∀ (j : Nat) (hj : j < N), i ≤ j → B[j] = 0)
    (k : Nat) : memWrite B i (zeros k) = B := by
  refine Vector.ext fun j hj => ?_
  rw [memWrite_getElem]
  split
  next hin => simp [zeros, hzero j hj hin.1]
  next => rfl

/-! ### `Absorb` -/

/-- Bytes that leave room in the buffer stand behind those already there. -/
theorem absorb_of_room {data : List Byte} {hs : HashSession} (h : hs.n.val + data.length < 128) :
    absorb data hs = { hs with buf := memWrite hs.buf hs.n data, n := ⟨hs.n.val + data.length, h⟩ } := by
  induction data generalizing hs with
  | nil => simp
  | cons b bs ih =>
    rw [List.length_cons] at h
    have hroom : hs.n.val + 1 < 128 := by omega
    rw [absorb_cons, absorbByte_of_room b hroom, ih (by simp; omega), memWrite_cons _ hs.n.isLt]
    simp [Nat.add_assoc, Nat.add_comm 1]

/-- Bytes that exactly fill the buffer have the block compressed, counted and cleared. -/
theorem absorb_of_full {data : List Byte} {hs : HashSession} (h : hs.n.val + data.length = 128) :
    absorb data hs = {
      h := compress hs.h (memWrite hs.buf hs.n data)
      buf := Vector.replicate 128 0
      n := 0
      bits := hs.bits + 1024 } := by
  induction data generalizing hs with
  | nil => exact absurd h hs.n.isLt.ne
  | cons b bs ih =>
    rw [List.length_cons] at h
    rw [absorb_cons, memWrite_cons _ hs.n.isLt]
    by_cases hroom : hs.n.val + 1 < 128
    · rw [absorbByte_of_room b hroom, ih (by simp; omega)]
    · obtain rfl : bs = [] := List.eq_nil_of_length_eq_zero (by omega)
      rw [absorbByte_of_full b hroom, absorb_nil, memWrite_nil]

/-- Settles O28: the buffer filled behind its valid bytes is a write to it. -/
theorem absorbFillsTheBufferThenCompresses : Obligations.AbsorbFillsTheBufferThenCompresses := by
  intro data hs
  constructor
  · intro hroom
    rw [absorb_of_room hroom]
    congr 1
    exact Fin.ext (Nat.mod_eq_of_lt hroom).symm
  · intro hfull
    have hblock : memWrite hs.buf hs.n data =
        Vector.ofFn fun j : Fin 128 => if hs.n.val ≤ j.val then data.getD (j.val - hs.n.val) 0 else hs.buf[j] := by
      refine Vector.ext fun j hj => ?_
      simp only [memWrite_getElem, Vector.getElem_ofFn, hfull, hj, and_true]
      rfl
    rw [absorb_of_full hfull, hblock]

/-! ### The message schedule -/

/-- The recurrence of R104 in a list of schedule words that stand newest first. -/
def FollowsRecurrence (w : List Word64) : Prop :=
  ∀ i, i + 16 < w.length →
    w.getD i 0 = ssig1 (w.getD (i + 2) 0) + w.getD (i + 7) 0 + ssig0 (w.getD (i + 15) 0) + w.getD (i + 16) 0

/-- The first 16 words are under no recurrence. -/
theorem followsRecurrence_of_length_le {w : List Word64} (h : w.length ≤ 16) : FollowsRecurrence w :=
  fun i hi => by omega

theorem FollowsRecurrence.extendSchedule {w : List Word64} (h : FollowsRecurrence w) (m : Nat) :
    FollowsRecurrence (extendSchedule m w) := by
  induction m generalizing w with
  | zero => exact h
  | succ m ih =>
    refine ih fun i hi => ?_
    cases i with
    | zero => rfl
    | succ i => exact h i (Nat.lt_of_succ_lt_succ (by simpa [Nat.add_right_comm] using hi))

/-- New words are put before those already there. -/
theorem extendSchedule_eq_append (m : Nat) (w : List Word64) :
    ∃ new, new.length = m ∧ extendSchedule m w = new ++ w := by
  induction m generalizing w with
  | zero => exact ⟨[], rfl, rfl⟩
  | succ m ih =>
    obtain ⟨new, hlen, heq⟩ := ih ((ssig1 (w.getD 1 0) + w.getD 6 0 + ssig0 (w.getD 14 0) + w.getD 15 0) :: w)
    exact ⟨new ++ [_], by simp [hlen], by rw [Machine.extendSchedule, heq, List.append_assoc, List.singleton_append]⟩

@[simp] theorem blockWords_length (B : Vector Byte 128) : (blockWords B).length = 16 := by simp [blockWords]

/-- The schedule begins with the words of the block. -/
theorem schedule_eq_append (B : Vector Byte 128) : ∃ new, new.length = 64 ∧ schedule B = blockWords B ++ new := by
  obtain ⟨new, hlen, heq⟩ := extendSchedule_eq_append 64 (blockWords B).reverse
  exact ⟨new.reverse, by simp [hlen], by simp [schedule, heq]⟩

@[simp] theorem schedule_length (B : Vector Byte 128) : (schedule B).length = 80 := by
  obtain ⟨new, hlen, heq⟩ := schedule_eq_append B
  simp [heq, hlen]

/-- The schedule word `W[79 - i]` is the `i`-th newest. -/
theorem schedule_getD (B : Vector Byte 128) {t i : Nat} (h : t + i = 79) :
    (schedule B).getD t 0 = (schedule B).reverse.getD i 0 := by
  rw [List.getD_reverse _ (by rw [schedule_length]; omega), schedule_length, show 80 - 1 - i = t by omega]

theorem schedule_followsRecurrence (B : Vector Byte 128) : FollowsRecurrence (schedule B).reverse := by
  rw [schedule, List.reverse_reverse]
  exact (followsRecurrence_of_length_le (by simp)).extendSchedule 64

/-- Settles O25: the block's own words come first, and `W[t]` is the newest but `79 - t` of the words that follow the
recurrence. -/
theorem scheduleFollowsTheRecurrence : Obligations.ScheduleFollowsTheRecurrence := by
  intro B
  refine ⟨schedule_length B, fun t ht => ?first, fun t hlow hhigh => ?later⟩
  case first =>
    obtain ⟨new, -, heq⟩ := schedule_eq_append B
    rw [heq, List.getD_append _ _ _ _ (by simpa using ht)]
    simp [blockWords, ht]
  case later =>
    have hrec := schedule_followsRecurrence B (79 - t) (by simp; omega)
    rwa [← schedule_getD B (t := t) (by omega), ← schedule_getD B (t := t - 2) (by omega),
      ← schedule_getD B (t := t - 7) (by omega), ← schedule_getD B (t := t - 15) (by omega),
      ← schedule_getD B (t := t - 16) (by omega)] at hrec

/-! ### `Compress` -/

theorem rotateRight_eq_rotr64 (x : Word64) {r : Nat} (hr : r < 64) : x.rotateRight r = rotr64 x r := by
  rw [BitVec.rotateRight_def, Nat.mod_eq_of_lt hr, rotr64]

theorem roundConstants_length : roundConstants.length = 80 := rfl

/-- `K[t]` against the cube root of the `t`-th prime, whose integer part is below 8. -/
theorem roundConstants_cubeRoots : ∀ t < 80, ∃ m < 8,
    (2 ^ 64 * m + (roundConstants.getD t 0).toNat) ^ 3 ≤ firstPrimes.getD t 0 * 2 ^ 192 ∧
    firstPrimes.getD t 0 * 2 ^ 192 < (2 ^ 64 * m + (roundConstants.getD t 0).toNat + 1) ^ 3 := by
  decide +kernel

/-- The eight variables after the first `t` rounds over a block. -/
def varsAfter (H : Vector Word64 8) (B : Vector Byte 128) (t : Nat) : Vars :=
  ((roundConstants.zip (schedule B)).take t).foldl hashRound
    { a := H[0], b := H[1], c := H[2], d := H[3], e := H[4], f := H[5], g := H[6], h := H[7] }

/-- The next round takes the round constant and the schedule word of its number. -/
theorem varsAfter_succ (H : Vector Word64 8) (B : Vector Byte 128) {t : Nat} (ht : t < 80) :
    varsAfter H B (t + 1) = hashRound (varsAfter H B t) (roundConstants.getD t 0, (schedule B).getD t 0) := by
  have hK : t < roundConstants.length := ht
  have hW : t < (schedule B).length := by rwa [schedule_length]
  have hzip : t < (roundConstants.zip (schedule B)).length := by
    rw [List.length_zip]
    exact lt_min hK hW
  rw [varsAfter, List.take_succ_eq_append_getElem hzip, List.foldl_append, List.getElem_zip,
    List.getD_eq_getElem _ _ hK, List.getD_eq_getElem _ _ hW]
  rfl

/-- `Compress` adds the variables after all 80 rounds to the chaining value. -/
theorem compress_eq_varsAfter (H : Vector Word64 8) (B : Vector Byte 128) :
    compress H B = #v[H[0] + (varsAfter H B 80).a, H[1] + (varsAfter H B 80).b, H[2] + (varsAfter H B 80).c,
      H[3] + (varsAfter H B 80).d, H[4] + (varsAfter H B 80).e, H[5] + (varsAfter H B 80).f,
      H[6] + (varsAfter H B 80).g, H[7] + (varsAfter H B 80).h] := by
  have hall : (roundConstants.zip (schedule B)).take 80 = roundConstants.zip (schedule B) :=
    List.take_of_length_le (by simp [roundConstants_length])
  rw [varsAfter, hall]
  rfl

/-- Settles O59: the variables are those after the first `t` rounds. -/
theorem compressIsEightyRoundsAndTheAddition : Obligations.CompressIsEightyRoundsAndTheAddition := by
  refine ⟨fun x y z => ⟨rfl, rfl⟩, fun x => ?words, ⟨roundConstants_length, fun t ht => ?constants⟩, fun H B => ?rounds⟩
  case words => simp only [bsig0, bsig1, ssig0, ssig1, rotateRight_eq_rotr64, Nat.reduceLT, and_self]
  case constants =>
    obtain ⟨m, -, hroot⟩ := roundConstants_cubeRoots t ht
    exact ⟨m, hroot⟩
  case rounds => exact ⟨varsAfter H B, rfl, fun t ht => varsAfter_succ H B ht, compress_eq_varsAfter H B⟩

/-! ### `SHA` -/

/-- The bits of a session's message so far, modulo 2^64: the length field of R108. -/
def HashSession.total (hs : HashSession) : Word64 := hs.bits + 8 * BitVec.ofNat 64 hs.n.val

theorem absorbByte_n (hs : HashSession) (b : Byte) : (absorbByte hs b).n.val = (hs.n.val + 1) % 128 := by
  by_cases hroom : hs.n.val + 1 < 128
  · rw [absorbByte_of_room b hroom, Nat.mod_eq_of_lt hroom]
  · have hfull : hs.n.val + 1 = 128 := by omega
    rw [absorbByte_of_full b hroom, hfull]
    rfl

theorem absorbByte_total (hs : HashSession) (b : Byte) : (absorbByte hs b).total = hs.total + 8 := by
  by_cases hroom : hs.n.val + 1 < 128
  · simp [absorbByte_of_room b hroom, HashSession.total, BitVec.ofNat_add, BitVec.mul_add, BitVec.add_assoc]
  · have hn : hs.n.val = 127 := by omega
    simp [absorbByte_of_full b hroom, HashSession.total, hn, BitVec.add_assoc]

/-- The buffer holds what is left of the bytes absorbed after taking out whole blocks. -/
theorem absorb_n (data : List Byte) (hs : HashSession) :
    (absorb data hs).n.val = (hs.n.val + data.length) % 128 := by
  induction data generalizing hs with
  | nil => exact (Nat.mod_eq_of_lt hs.n.isLt).symm
  | cons b bs ih =>
    rw [absorb_cons, ih, absorbByte_n, List.length_cons]
    omega

/-- Every byte absorbed counts eight bits. -/
theorem absorb_total (data : List Byte) (hs : HashSession) :
    (absorb data hs).total = hs.total + BitVec.ofNat 64 (8 * data.length) := by
  induction data generalizing hs with
  | nil => simp
  | cons b bs ih =>
    rw [absorb_cons, ih, absorbByte_total, List.length_cons, Nat.mul_succ, BitVec.ofNat_add, BitVec.add_assoc,
      BitVec.add_comm 8]
    rfl

/-- Absorbing the first `k` whole blocks chains their compressions. -/
theorem absorb_blocks {m : List Byte} {k : Nat} (h : 128 * k ≤ m.length) :
    absorb (m.take (128 * k)) initSession =
      { h := chainBlocks m k, buf := Vector.replicate 128 0, n := 0, bits := BitVec.ofNat 64 (1024 * k) } := by
  induction k with
  | zero => rfl
  | succ k ih =>
    have hlen : ((m.drop (128 * k)).take 128).length = 128 := by simp; omega
    have hblock : memWrite (Vector.replicate 128 0) 0 ((m.drop (128 * k)).take 128) =
        Vector.ofFn fun j : Fin 128 => m.getD (128 * k + j.val) 0 := by
      refine Vector.ext fun j hj => ?_
      have hlt : 128 * k + j < m.length := by omega
      simp [hlen, hj, hlt]
    rw [Nat.mul_succ, List.take_add, absorb_append, ih (by omega), absorb_of_full (by simpa using hlen),
      Nat.mul_succ, BitVec.ofNat_add, chainBlocks, ← hblock]
    rfl

/-- What `padMessage` puts behind a message of `l` bytes. -/
def padding (l : Nat) (total : Word64) : List Byte :=
  [0x80] ++ zeros ((128 - (l + 17) % 128) % 128) ++ zeros 8 ++ be64 total

theorem padMessage_eq_append (m : List Byte) :
    padMessage m = m ++ padding m.length (BitVec.ofNat 64 (8 * m.length)) := by
  simp [padMessage, padding]

theorem zeros_add (a b : Nat) : zeros (a + b) = zeros a ++ zeros b := List.replicate_add _ _ _

/-- With room for the length field behind the byte 0x80, the padding fills the block. -/
theorem padding_of_lt {l : Nat} (total : Word64) (h : l % 128 < 112) :
    padding l total = [0x80] ++ zeros (111 - l % 128) ++ zeros 8 ++ be64 total := by
  rw [padding, show (128 - (l + 17) % 128) % 128 = 111 - l % 128 by omega]

/-- Without it the padding fills this block, and one more with the length field at its end. -/
theorem padding_of_ge {l : Nat} (total : Word64) (h : 112 ≤ l % 128) :
    padding l total = ([0x80] ++ zeros (127 - l % 128)) ++ (zeros 112 ++ zeros 8 ++ be64 total) := by
  rw [padding, show (128 - (l + 17) % 128) % 128 = 127 - l % 128 + 112 by omega, zeros_add]
  simp only [List.append_assoc]

/-- The byte 0x80 and zero bytes behind it, written to a buffer with a zero tail. -/
theorem HashSession.Tidy.write_marker {hs : HashSession} (h : hs.Tidy) (k : Nat) :
    memWrite hs.buf hs.n ([0x80] ++ zeros k) = hs.buf.set hs.n 0x80 := by
  rw [memWrite_append, memWrite_singleton _ hs.n.isLt]
  refine memWrite_zeros _ (fun j hj hle => ?_) k
  have hlt : hs.n.val < j := hle
  rw [Vector.getElem_set_ne _ _ hlt.ne]
  exact h.zeroTail ⟨j, hj⟩ (Fin.le_def.2 hlt.le)

/-- `Finish` with room for the length field compresses one block. -/
theorem finish_of_room {hs : HashSession} (h : hs.n.val < 112) : (finish hs).1 =
    digestBytes (compress hs.h (memWrite (memWrite (hs.buf.set hs.n 0x80) 112 (zeros 8)) 120 (be64 hs.total))) := by
  simp [finish, h.not_ge, HashSession.total]

/-- `Finish` without it compresses the block with the byte 0x80 and one that holds the length field alone. -/
theorem finish_of_noRoom {hs : HashSession} (h : 112 ≤ hs.n.val) : (finish hs).1 =
    digestBytes (compress (compress hs.h (hs.buf.set hs.n 0x80))
      (memWrite (memWrite (Vector.replicate 128 0) 112 (zeros 8)) 120 (be64 hs.total))) := by
  simp [finish, h, HashSession.total]

/-- `Finish` is absorbing the padding: the digest is the chaining value this leaves. -/
theorem finish_eq_absorb_padding {hs : HashSession} (h : hs.Tidy) {l : Nat} (hl : hs.n.val = l % 128) :
    (finish hs).1 = digestBytes (absorb (padding l hs.total) hs).h := by
  by_cases hroom : hs.n.val < 112
  · have hmarker : hs.n.val + ([0x80] ++ zeros (111 - l % 128)).length = 112 := by
      simp
      omega
    have hfull : hs.n.val + ([0x80] ++ zeros (111 - l % 128) ++ zeros 8 ++ be64 hs.total).length = 128 := by
      rw [List.length_append, List.length_append, ← Nat.add_assoc, ← Nat.add_assoc, hmarker, zeros_length, be64_length]
    have hwrite : memWrite hs.buf hs.n ([0x80] ++ zeros (111 - l % 128) ++ zeros 8 ++ be64 hs.total) =
        memWrite (memWrite (hs.buf.set hs.n 0x80) 112 (zeros 8)) 120 (be64 hs.total) := by
      rw [memWrite_append, memWrite_append, h.write_marker, List.length_append (bs := zeros 8), ← Nat.add_assoc,
        hmarker, zeros_length]
    rw [padding_of_lt _ (hl ▸ hroom), absorb_of_full hfull, hwrite, finish_of_room hroom]
  · have hge : 112 ≤ hs.n.val := Nat.le_of_not_lt hroom
    have hfirst : hs.n.val + ([0x80] ++ zeros (127 - l % 128)).length = 128 := by
      simp
      omega
    have hwrite : memWrite (Vector.replicate 128 0) 0 (zeros 112 ++ zeros 8 ++ be64 hs.total) =
        memWrite (memWrite (Vector.replicate 128 0) 112 (zeros 8)) 120 (be64 hs.total) := by
      rw [memWrite_append, memWrite_append, memWrite_zeros _ (fun j hj _ => Vector.getElem_replicate hj)]
      simp only [List.length_append, zeros_length, Nat.reduceAdd]
    rw [padding_of_ge _ (hl ▸ hge), absorb_append, absorb_of_full hfirst, absorb_of_full (by simp), h.write_marker,
      finish_of_noRoom hge, ← hwrite]
    rfl

/-- `SHA` absorbs the padded message. -/
theorem sha_eq_absorb_padMessage (m : List Byte) : sha m = digestBytes (absorb (padMessage m) initSession).h := by
  have htotal : (absorb m initSession).total = BitVec.ofNat 64 (8 * m.length) := by
    rw [absorb_total]
    exact BitVec.zero_add _
  have hn : (absorb m initSession).n.val = m.length % 128 := by
    rw [absorb_n]
    exact congrArg (· % 128) (Nat.zero_add _)
  rw [sha, finish_eq_absorb_padding (initSession_tidy.absorb m) hn, htotal, ← absorb_append, ← padMessage_eq_append]

theorem padMessage_length_mod (m : List Byte) : (padMessage m).length % 128 = 0 := by
  simp only [padMessage, List.length_append, List.length_singleton, zeros_length, be64_length]
  omega

/-- Settles O33: `SHA` absorbs the padded message, and absorbing whole blocks chains their compressions. -/
theorem shaIsTheMerkleDamgardHashOfThePaddedMessage : Obligations.ShaIsTheMerkleDamgardHashOfThePaddedMessage := by
  intro m
  have hwhole : 128 * ((padMessage m).length / 128) = (padMessage m).length :=
    Nat.mul_div_cancel' (Nat.dvd_of_mod_eq_zero (padMessage_length_mod m))
  have hblocks := absorb_blocks (m := padMessage m) hwhole.le
  rw [hwhole, List.take_length] at hblocks
  refine ⟨padMessage_length_mod m, ?_⟩
  rw [sha_eq_absorb_padMessage, hblocks, digestBytes]

end Sys2Proof.Machine
end

section
/-! SUPPORT. The statements about the keyed hash (42_mac.md): the canonical key, what the MAC commands do to a session,
the tag as a closed form, and the comparison of `MAC_VERIFY`.

Everything rests on the hash unit's laws: the inner pad is one whole block for `Absorb`, and the outer digest is `SHA` of
a concatenation because `Absorb` goes piece by piece. -/

namespace Sys2Proof.Machine

/-! ### The canonical key -/

theorem canonKey_of_le {k : List Byte} (h : k.length ≤ 128) : canonKey k = k ++ zeros (128 - k.length) := if_pos h

theorem canonKey_of_gt {k : List Byte} (h : 128 < k.length) : canonKey k = sha k ++ zeros 64 := if_neg h.not_ge

@[simp] theorem canonKey_length (k : List Byte) : (canonKey k).length = 128 := by
  rcases Nat.lt_or_ge 128 k.length with hlong | hshort
  · simp [canonKey_of_gt hlong]
  · simp [canonKey_of_le hshort, hshort]

/-- Zero bytes behind a key that still fits a block are those its canonical key has anyway. -/
theorem canonKey_append_zeros {k : List Byte} {m : Nat} (h : k.length + m ≤ 128) :
    canonKey (k ++ zeros m) = canonKey k := by
  have hlen : (k ++ zeros m).length = k.length + m := by simp
  rw [canonKey_of_le (hlen.trans_le h), canonKey_of_le (by omega), hlen, List.append_assoc, ← zeros_add,
    show m + (128 - (k.length + m)) = 128 - k.length by omega]

/-- The digest of a long key is a short key, with the same zero bytes behind it. -/
theorem canonKey_sha {k : List Byte} (h : 128 < k.length) : canonKey k = canonKey (sha k) := by
  rw [canonKey_of_gt h, canonKey_of_le (by simp), sha_length]

/-- Settles O34: the two branches of `CanonKey`, and what they have in common. -/
theorem canonicalKeyIsOneBlock : Obligations.CanonicalKeyIsOneBlock :=
  ⟨fun _ h => canonKey_of_le h, fun _ h => canonKey_of_gt h, canonKey_length, fun _ _ h => canonKey_append_zeros h,
    fun _ h => canonKey_sha h⟩

/-! ### The tag -/

/-- `SHA` of two pieces absorbs one after the other. -/
theorem sha_append (x y : List Byte) : sha (x ++ y) = (finish (absorb y (absorb x initSession))).1 := by
  rw [sha, absorb_append]

/-- The tag is one digest, over the key XOR the outer pad and the inner digest. -/
theorem macTag_eq_sha (s : State) :
    (macTag s).1 = sha (xorEach opad s.macKey.toList ++ (finish s.hs).1) := by
  rw [macTag_tag, sha_append]

/-- Bytes OR-ed together give zero exactly when all of them are zero. -/
theorem foldl_or_eq_zero (a : Byte) (bs : List Byte) :
    bs.foldl (· ||| ·) a = 0#8 ↔ a = 0#8 ∧ ∀ b ∈ bs, b = 0#8 := by
  induction bs generalizing a with
  | nil => simp
  | cons b bs ih => rw [List.foldl_cons, ih, BitVec.or_eq_zero_iff, List.forall_mem_cons, and_assoc]

/-- Byte strings of one length are equal exactly when all their byte differences are zero. -/
theorem zipWith_xor_eq_zero {t e : List Byte} (h : t.length = e.length) :
    (∀ d ∈ List.zipWith (· ^^^ ·) t e, d = 0#8) ↔ t = e := by
  induction t generalizing e with
  | nil =>
    obtain rfl : e = [] := List.eq_nil_of_length_eq_zero h.symm
    simp
  | cons b bs ih =>
    cases e with
    | nil => simp at h
    | cons c cs =>
      rw [List.zipWith_cons_cons, List.forall_mem_cons, ih (Nat.succ.inj h), BitVec.xor_eq_zero_iff, List.cons.injEq]

/-- `MAC_VERIFY` compares: tags of one length have no difference exactly when they are equal. -/
theorem tagDifference_eq_zero {t e : List Byte} (h : t.length = e.length) : tagDifference t e = 0 ↔ t = e :=
  (foldl_or_eq_zero 0 _).trans ((and_iff_right rfl).trans (zipWith_xor_eq_zero h))

/-! ### The MAC commands -/

theorem exec_macInit (s : State) (k : List Byte) : exec (.macInit 0 k) s =
    .next ({ s with
      macKey := memWrite keyWiped 0 (canonKey k)
      hs := absorb (xorEach ipad (canonKey k)) initSession
      hmode := .mac }.respond []) := exec_of_passed rfl

theorem exec_macUpdate {s : State} (hmode : s.hmode = .mac) (inp : List Byte) :
    exec (.macUpdate 0 inp) s = .next ({ s with hs := absorb inp s.hs }.respond []) :=
  exec_of_passed (by simp [Instr.checks, argZero, modeIs, hmode])

theorem exec_macUpdate_outOfSequence {s : State} (hmode : s.hmode ≠ .mac) (inp : List Byte) :
    exec (.macUpdate 0 inp) s = .next (s.raise .eSeq) :=
  exec_of_failed (by simp [Instr.checks, argZero, modeIs, hmode])

theorem exec_macFinal {s : State} {outlen : Byte} (hmode : s.hmode = .mac) (hlen : outlen.toNat ≤ 64) :
    exec (.macFinal outlen []) s =
      .next ({ s with hs := HashSession.wiped, macKey := keyWiped, hmode := .idle }.respond
        ((macTag s).1.take outlen.toNat)) :=
  exec_of_passed (by simp [Instr.checks, outlenMax, lenIs, modeIs, hmode, hlen])

theorem exec_macFinal_outOfSequence {s : State} {outlen : Byte} (hmode : s.hmode ≠ .mac) (hlen : outlen.toNat ≤ 64) :
    exec (.macFinal outlen []) s = .next (s.raise .eSeq) :=
  exec_of_failed (by simp [Instr.checks, outlenMax, lenIs, modeIs, hmode, hlen])

/-- An `OUTLEN` of at least 1 passes the check that it is not 0. -/
theorem outlen_ne_zero {outlen : Byte} (h : 1 ≤ outlen.toNat) : outlen ≠ 0#8 := by
  rintro rfl
  exact absurd h (by decide)

theorem exec_macVerify {s : State} {outlen : Byte} {inp : List Byte} (hmode : s.hmode = .mac)
    (hpos : 1 ≤ outlen.toNat) (hle : outlen.toNat ≤ 64) (hlen : inp.length = outlen.toNat) :
    exec (.macVerify outlen inp) s =
      .next ({ s with hs := HashSession.wiped, macKey := keyWiped, hmode := .idle }.respond
        (if (macTag s).1.take outlen.toNat = inp then [0x01] else [0x00])) := by
  have hsame : ((macTag s).1.take outlen.toNat).length = inp.length := by simp [hlen, hle]
  rw [← if_congr (tagDifference_eq_zero hsame) rfl rfl]
  exact exec_of_passed
    (by simp [Instr.checks, outlenMin, outlenMax, lenIs, modeIs, hmode, outlen_ne_zero hpos, hle, hlen])

theorem exec_macVerify_outOfSequence {s : State} {outlen : Byte} {inp : List Byte} (hmode : s.hmode ≠ .mac)
    (hpos : 1 ≤ outlen.toNat) (hle : outlen.toNat ≤ 64) (hlen : inp.length = outlen.toNat) :
    exec (.macVerify outlen inp) s = .next (s.raise .eSeq) :=
  exec_of_failed (by simp [Instr.checks, outlenMin, outlenMax, lenIs, modeIs, hmode, outlen_ne_zero hpos, hle, hlen])

theorem exec_sysReset (s : State) : exec (.sysReset 0 []) s = .next (s.clear.respond []) := exec_of_passed rfl

/-- Who moves the mode of the hash session: a command of the two units that share it, or a reset; and it completes. -/
theorem hmode_moved {i : Instr} {s t : State} (h : exec i s = .next t) (hmoved : t.hmode ≠ s.hmode) :
    t.rsp = some .ok ∧ (unitOf i = 1#4 ∨ unitOf i = 2#4 ∨ (i.opcode = 0x01 ∧ t.hmode = .idle)) := by
  cases exec_unitEffect h with
  | raised | generatorRaised | status | cipher | generator => exact absurd rfl hmoved
  | reset arg inp hi => exact ⟨rfl, .inr (.inr ⟨by rw [hi]; rfl, rfl⟩)⟩
  | session hop => exact ⟨rfl, hop.imp_right .inl⟩

/-- Settles O21: each command that completes or is out of sequence is one of the equations above, and nothing else
writes the mode. -/
theorem macCommandsMoveTheSessionMode : Obligations.MacCommandsMoveTheSessionMode := by
  refine ⟨fun s key => ?init, fun s inp hmode => ?update, fun s inp hmode => ?updateFaults,
    fun s outlen hlen hmode => ?final, fun s outlen hlen hmode => ?finalFaults,
    fun s outlen inp hpos hle hlen hmode => ?verify, fun s outlen inp hpos hle hlen hmode => ?verifyFaults,
    fun s => ?reset, fun i s t hexec hmoved => ?moved⟩
  case init => exact ⟨_, exec_macInit s key, rfl, rfl⟩
  case update => exact ⟨_, exec_macUpdate hmode inp, rfl, hmode⟩
  case updateFaults => exact exec_macUpdate_outOfSequence hmode inp
  case final => exact ⟨_, exec_macFinal hmode hlen, rfl, rfl⟩
  case finalFaults => exact exec_macFinal_outOfSequence hmode hlen
  case verify => exact ⟨_, exec_macVerify hmode hpos hle hlen, rfl, rfl⟩
  case verifyFaults => exact exec_macVerify_outOfSequence hmode hpos hle hlen
  case reset => exact ⟨_, exec_sysReset s, rfl, rfl⟩
  case moved => exact hmode_moved hexec hmoved

/-! ### The state each MAC command ends in -/

/-- Settles O36: the state `MAC_UPDATE` ends in. -/
theorem macUpdateAbsorbsItsPayload : Obligations.MacUpdateAbsorbsItsPayload :=
  fun _ inp hmode => exec_macUpdate hmode inp

/-- Settles O37: the state `MAC_FINAL` ends in, with the tag as an outer digest. -/
theorem macFinalOutputsThePrefixOfTheOuterDigest : Obligations.MacFinalOutputsThePrefixOfTheOuterDigest := by
  intro s outlen hmode hlen
  rw [exec_macFinal hmode hlen, macTag_eq_sha]
  rfl

/-- Settles O38: the state `MAC_VERIFY` ends in, with the tag as an outer digest. -/
theorem macVerifyAnswersEqualityOfTheTags : Obligations.MacVerifyAnswersEqualityOfTheTags := by
  intro s outlen inp hmode hpos hle hlen
  rw [exec_macVerify hmode hpos hle hlen, macTag_eq_sha]
  rfl

/-- A write of a whole array leaves the bytes written. -/
theorem memWrite_eq_ofFn {N : Nat} (B : Vector Byte N) {v : List Byte} (h : v.length = N) :
    memWrite B 0 v = Vector.ofFn fun j : Fin N => v.getD j.val 0 := by
  refine Vector.ext fun j hj => ?_
  simp [h, hj]

/-- Settles O35: the canonical key XOR the inner pad is 128 bytes, so an empty buffer is exactly filled. -/
theorem macInitAbsorbsTheInnerPad : Obligations.MacInitAbsorbsTheInnerPad := by
  intro s k
  have hfull : initSession.n.val + (xorEach ipad (canonKey k)).length = 128 := by
    rw [xorEach_length, canonKey_length]
    rfl
  have hpad : (Vector.ofFn fun j : Fin 128 => (xorEach ipad (canonKey k)).getD j.val 0) =
      Vector.ofFn fun j : Fin 128 => (canonKey k).getD j.val 0 ^^^ 0x36 := by
    refine Vector.ext fun j hj => ?_
    simp [xorEach, ipad]
  have hblock : memWrite initSession.buf initSession.n (xorEach ipad (canonKey k)) =
      Vector.ofFn fun j : Fin 128 => (canonKey k).getD j.val 0 ^^^ 0x36 :=
    (memWrite_eq_ofFn _ (by simp)).trans hpad
  rw [exec_macInit, memWrite_eq_ofFn keyWiped (canonKey_length k), absorb_of_full hfull, hblock]
  rfl

/-! ### Sessions of several commands -/

/-- Commands that each absorb their payload in the mode `m`, one after another, absorb their payloads in one piece. -/
theorem runSeq_absorbing {m : HMode} {update : List Byte → Instr}
    (hupdate : ∀ {s : State}, s.hmode = m → ∀ inp,
      exec (update inp) s = .next ({ s with hs := absorb inp s.hs }.respond []))
    (chunks : List (List Byte)) (is : List Instr) {s : State} (hmode : s.hmode = m) :
    runSeq (chunks.map update ++ is) (s.respond []) =
      runSeq is ({ s with hs := absorb chunks.flatten s.hs }.respond []) := by
  induction chunks generalizing s with
  | nil => rfl
  | cons c cs ih =>
    have hfirst : exec (update c) (s.respond []) = .next ({ s with hs := absorb c s.hs }.respond []) :=
      hupdate (s := s.respond []) hmode c
    rw [List.map_cons, List.cons_append, runSeq_cons hfirst, ih (s := { s with hs := absorb c s.hs }) hmode,
      List.flatten_cons, absorb_append]

/-- The tag of a session that has absorbed the inner pad of a key and then a message. -/
theorem macTag_eq_macFn {s : State} {k m : List Byte} (hkey : s.macKey = memWrite keyWiped 0 (canonKey k))
    (hhs : s.hs = absorb m (absorb (xorEach ipad (canonKey k)) initSession)) : (macTag s).1 = macFn k m := by
  rw [macTag_eq_sha, hkey, memWrite_all _ _ (canonKey_length k), hhs, ← sha_append]
  rfl

/-- Settles O39: after `MAC_INIT` the updates absorb the whole message behind the inner pad, and `MAC_FINAL` answers with
the tag of that session. -/
theorem macSessionAnswersTheClosedForm : Obligations.MacSessionAnswersTheClosedForm := by
  intro s k chunks outlen hlen
  rw [runSeq_cons (exec_macInit s k), runSeq_absorbing exec_macUpdate chunks _ rfl, runSeq_cons (exec_macFinal rfl hlen),
    macTag_eq_macFn (k := k) (m := chunks.flatten)]
  case hkey => rfl
  case hhs => rfl
  rfl

end Sys2Proof.Machine
end

section
/-! SUPPORT. The statements about the stream cipher (43_cipher.md): what `Block` computes, how the counter counts within
one keying, and the state each cipher command ends in.

`Increment` is read twice: `increment_cases` says which counter word ends the carry, `increment_counter_cases` what this
is for the counter as a number. Every statement about counting uses the second only. -/

namespace Sys2Proof.Machine

/-! ### Bytes and words -/

/-- The bytes of a word, least significant first. -/
theorem le32_eq_extractLsb (w : Word32) :
    le32 w = [w.extractLsb' 0 8, w.extractLsb' 8 8, w.extractLsb' 16 8, w.extractLsb' 24 8] := by
  simp [le32, leBytes, BitVec.extractLsb', Nat.shiftRight_eq_div_pow, Nat.div_div_eq_div_mul]

/-- The first byte of a string read as a number is its lowest; a string that ends too soon is read as if zero bytes
followed. -/
theorem fromLE_take_succ (n : Nat) (b : List Byte) :
    fromLE (b.take (n + 1)) = (b.getD 0 0).toNat + 256 * fromLE ((b.drop 1).take n) := by
  cases b <;> simp [fromLE]

/-- A byte put below a bit vector. -/
theorem toNat_append_byte {n : Nat} (x : BitVec n) (b : Byte) : (x ++ b).toNat = b.toNat + 256 * x.toNat := by
  rw [BitVec.toNat_append, ← Nat.shiftLeft_add_eq_or_of_lt b.isLt, Nat.shiftLeft_eq, Nat.add_comm, Nat.mul_comm]

/-- Four bytes read as a word, the first of them least significant. -/
theorem fromLE32_take_drop (b : List Byte) (k : Nat) :
    fromLE32 ((b.drop k).take 4) = b.getD (k + 3) 0 ++ b.getD (k + 2) 0 ++ b.getD (k + 1) 0 ++ b.getD k 0 := by
  have hread : fromLE ((b.drop k).take 4) =
      (b.getD (k + 3) 0 ++ b.getD (k + 2) 0 ++ b.getD (k + 1) 0 ++ b.getD k 0).toNat := by
    simp [fromLE_take_succ, fromLE, toNat_append_byte]
  rw [fromLE32, hread, BitVec.ofNat_toNat, BitVec.setWidth_eq]

/-- Where all pieces have `n` bytes, the `i`-th `n` bytes are the `i`-th piece. -/
theorem take_drop_flatMap {α : Type} {f : α → List Byte} {n : Nat} (hf : ∀ a, (f a).length = n) {l : List α} {i : Nat}
    (hi : i < l.length) : ((l.flatMap f).drop (n * i)).take n = f l[i] := by
  induction l generalizing i with
  | nil => simp at hi
  | cons a l ih =>
    cases i with
    | zero => simp [List.take_left' (hf a)]
    | succ i =>
      rw [List.flatMap_cons, Nat.mul_succ, Nat.add_comm, ← List.drop_drop, List.drop_left' (hf a)]
      exact ih _

/-! ### `Increment` -/

/-- The four ways `Increment` goes: the first counter word that does not become zero takes the carry and ends it; when
none does, the flag is set. -/
theorem increment_cases (c : CipherCtx) :
    (c.s[12] + 1#32 ≠ 0#32 ∧ increment c = { c with s := c.s.set 12 (c.s[12] + 1#32) }) ∨
    (c.s[12] + 1#32 = 0#32 ∧ c.s[13] + 1#32 ≠ 0#32 ∧
      increment c = { c with s := (c.s.set 12 0#32).set 13 (c.s[13] + 1#32) }) ∨
    (c.s[12] + 1#32 = 0#32 ∧ c.s[13] + 1#32 = 0#32 ∧ c.s[14] + 1#32 ≠ 0#32 ∧
      increment c = { c with s := ((c.s.set 12 0#32).set 13 0#32).set 14 (c.s[14] + 1#32) }) ∨
    (c.s[12] + 1#32 = 0#32 ∧ c.s[13] + 1#32 = 0#32 ∧ c.s[14] + 1#32 = 0#32 ∧
      increment c = { s := ((c.s.set 12 0#32).set 13 0#32).set 14 0#32, x := true }) := by
  by_cases h12 : c.s[12] + 1#32 = 0#32
  · by_cases h13 : c.s[13] + 1#32 = 0#32
    · by_cases h14 : c.s[14] + 1#32 = 0#32
      · exact .inr (.inr (.inr ⟨h12, h13, h14, by simp [increment, h12, h13, h14]⟩))
      · exact .inr (.inr (.inl ⟨h12, h13, h14, by simp [increment, h12, h13, h14]⟩))
    · exact .inr (.inl ⟨h12, h13, by simp [increment, h12, h13]⟩)
  · exact .inl ⟨h12, by simp [increment, h12]⟩

/-- A word that becomes zero was the largest. -/
theorem toNat_of_succ_eq_zero {w : Word32} (h : w + 1#32 = 0#32) : w.toNat = 2 ^ 32 - 1 := by bv_omega

/-- A word that does not become zero goes up by one. -/
theorem toNat_succ_of_ne_zero {w : Word32} (h : w + 1#32 ≠ 0#32) : (w + 1#32).toNat = w.toNat + 1 := by bv_omega

/-- What an increment does to the counter as a number, whichever word ends the carry: it counts, or it wraps and sets
the flag. -/
theorem increment_counter_cases (c : CipherCtx) :
    (c.counter + 1 < 2 ^ 96 ∧ (increment c).counter = c.counter + 1 ∧ (increment c).x = c.x) ∨
    (c.counter + 1 = 2 ^ 96 ∧ (increment c).counter = 0 ∧ (increment c).x = true) := by
  have h12 := c.s[12].isLt
  have h13 := c.s[13].isLt
  have h14 := c.s[14].isLt
  rcases increment_cases c with ⟨n12, heq⟩ | ⟨z12, n13, heq⟩ | ⟨z12, z13, n14, heq⟩ | ⟨z12, z13, z14, heq⟩ <;>
    rw [heq]
  · have e12 := toNat_succ_of_ne_zero n12
    left
    simp [CipherCtx.counter, e12]
    omega
  · have e12 := toNat_of_succ_eq_zero z12
    have e13 := toNat_succ_of_ne_zero n13
    left
    simp [CipherCtx.counter, e12, e13]
    omega
  · have e12 := toNat_of_succ_eq_zero z12
    have e13 := toNat_of_succ_eq_zero z13
    have e14 := toNat_succ_of_ne_zero n14
    left
    simp [CipherCtx.counter, e12, e13, e14]
    omega
  · right
    simp [CipherCtx.counter, toNat_of_succ_eq_zero z12, toNat_of_succ_eq_zero z13, toNat_of_succ_eq_zero z14]

theorem increment_counter (c : CipherCtx) : (increment c).counter = (c.counter + 1) % 2 ^ 96 := by
  rcases increment_counter_cases c with ⟨hlt, hcounter, -⟩ | ⟨hwrap, hcounter, -⟩
  · rw [hcounter, Nat.mod_eq_of_lt hlt]
  · rw [hcounter, hwrap, Nat.mod_self]

theorem increment_x (c : CipherCtx) : (increment c).x = (c.x || decide (c.counter + 1 = 2 ^ 96)) := by
  rcases increment_counter_cases c with ⟨hlt, -, hx⟩ | ⟨hwrap, -, hx⟩
  · rw [hx, decide_eq_false hlt.ne, Bool.or_false]
  · rw [hx, decide_eq_true hwrap, Bool.or_true]

/-- Settles O41: the counter counts or wraps, and the words that hold no counter stay. -/
theorem incrementCountsNinetySixBits : Obligations.IncrementCountsNinetySixBits :=
  fun c => ⟨increment_counter c, increment_x c, fun i => increment_getElem c i i.isLt⟩

/-! ### One keying -/

/-- A context that is not exhausted after an increment has counted without wrapping. -/
theorem increment_counter_of_ready {c : CipherCtx} (h : (increment c).x = false) :
    (increment c).counter = c.counter + 1 := by
  rcases increment_counter_cases c with ⟨-, hcounter, -⟩ | ⟨-, -, hx⟩
  · exact hcounter
  · exact absurd (hx.symm.trans h) (by decide)

/-- As long as no increment exhausts the context, the counter is the number of increments further on. -/
theorem iterate_increment_counter {c : CipherCtx} {m : Nat} (h : ∀ j ≤ m, (iterate increment j c).x = false) :
    (iterate increment m c).counter = c.counter + m := by
  induction m with
  | zero => exact (Nat.add_zero _).symm
  | succ m ih =>
    have hready := h (m + 1) le_rfl
    rw [iterate_succ_outside] at hready ⊢
    rw [increment_counter_of_ready hready, ih fun j hj => h j (hj.trans m.le_succ), Nat.add_assoc]

/-- The counter is a function of the state words. -/
theorem CipherCtx.counter_congr {c c' : CipherCtx} (h : c.s = c'.s) : c.counter = c'.counter := by
  simp only [CipherCtx.counter, h]

/-- Settles O42: before the last block the counter is as many further on as blocks were produced, so no two of these
states agree; the last increment sets the flag exactly when it wraps. -/
theorem counterNeverRepeatsWithinAKeying : Obligations.CounterNeverRepeatsWithinAKeying := by
  intro c m hm hready
  have hcounter : ∀ j, j < m → (iterate increment j c).counter = c.counter + j := fun j hj =>
    iterate_increment_counter fun i hi => hready i (hi.trans_lt hj)
  refine ⟨hcounter, fun j k hjk hkm hsame => ?_, ?_⟩
  · have hequal := CipherCtx.counter_congr hsame
    rw [hcounter j (hjk.trans hkm), hcounter k hkm] at hequal
    omega
  · obtain ⟨n, rfl⟩ := Nat.exists_eq_add_of_le' hm
    rw [iterate_succ_outside, increment_x, hready n n.lt_succ_self, hcounter n n.lt_succ_self, Bool.false_or,
      decide_eq_true_iff, Nat.add_assoc]

/-! ### `Block` -/

theorem rotateLeft_eq_rotl32 (x : Word32) {r : Nat} (hr : r < 32) : x.rotateLeft r = rotl32 x r :=
  BitVec.rotateLeft_eq_rotateLeftAux_of_lt hr

/-- The model's iteration is that of the library. -/
theorem iterate_eq_natIterate {α : Type} (f : α → α) (m : Nat) (a : α) : iterate f m a = f^[m] a := by
  induction m generalizing a with
  | zero => rfl
  | succ m ih => exact ih (f a)

/-- A double-round goes through the index sets of R153 in their order. -/
theorem doubleRound_eq_foldl (x : Vector Word32 16) : doubleRound x =
    ([(0, 4, 8, 12), (1, 5, 9, 13), (2, 6, 10, 14), (3, 7, 11, 15),
      (0, 5, 10, 15), (1, 6, 11, 12), (2, 7, 8, 13), (3, 4, 9, 14)] : List (Fin 16 × Fin 16 × Fin 16 × Fin 16)).foldl
      (fun y q => qrAt q.1 q.2.1 q.2.2.1 q.2.2.2 y) x := by
  simp only [doubleRound, List.foldl_cons, List.foldl_nil]

theorem qr_zero : qr 0#32 0#32 0#32 0#32 = (0#32, 0#32, 0#32, 0#32) := by decide

/-- The all-zero state stays, whichever words `QR` is applied to. -/
theorem qrAt_zero (i j k l : Fin 16) : qrAt i j k l (Vector.replicate 16 0) = Vector.replicate 16 0 := by
  refine Vector.ext fun n hn => ?_
  simp [qrAt, qr_zero]

theorem doubleRound_zero : doubleRound (Vector.replicate 16 0) = Vector.replicate 16 0 := by
  simp only [doubleRound, qrAt_zero]

/-- `Block` with the double-rounds iterated and the feed-forward (R154). -/
theorem block_eq (s : Vector Word32 16) :
    block s = (Vector.ofFn fun i : Fin 16 => (doubleRound^[10] s)[i] + s[i]).toList.flatMap le32 := by
  rw [block, iterate_eq_natIterate]

/-- Each word stands in its own four bytes. -/
theorem take_drop_flatMap_le32 (v : Vector Word32 16) (i : Fin 16) :
    ((v.toList.flatMap le32).drop (4 * i.val)).take 4 = le32 v[i] := by
  rw [take_drop_flatMap le32_length (by simp)]
  rfl

/-- The four bytes of a block that hold a word. -/
theorem block_word (s : Vector Word32 16) (i : Fin 16) :
    ((block s).drop (4 * i.val)).take 4 = le32 ((doubleRound^[10] s)[i] + s[i]) := by
  rw [block_eq, take_drop_flatMap_le32]
  exact congrArg le32 (Vector.getElem_ofFn i.isLt)

/-- The all-zero state is fixed by the double-rounds, and its feed-forward adds zeros (the corner case of R154). -/
theorem block_zero : block (Vector.replicate 16 0) = List.replicate 64 0 := by
  rw [block_eq, Function.iterate_fixed doubleRound_zero]
  decide

/-- Settles O40: the rotation, the double-round as a pass over its index sets, the bytes of each word, and the all-zero
state, which a double-round leaves as it is. -/
theorem blockIsTenDoubleRoundsAndTheFeedForward : Obligations.BlockIsTenDoubleRoundsAndTheFeedForward := by
  refine ⟨fun a b c d => ?_, doubleRound_eq_foldl, fun s => ⟨block_length s, fun i => ?_⟩, block_zero⟩
  · simp only [qr, rotateLeft_eq_rotl32, Nat.reduceLT]
  · exact (block_word s i).trans (le32_eq_extractLsb _)

/-! ### The words the setups leave -/

theorem keySetup_key (c : CipherCtx) (key : List Byte) {i : Nat} (hi : 4 ≤ i) (hi' : i < 12) :
    (keySetup c key).s[i] = fromLE32 ((key.drop (4 * (i - 4))).take 4) := by
  simp [keySetup, hi', hi.not_gt]

theorem keySetup_counter (c : CipherCtx) (key : List Byte) {i : Nat} (hi : 12 ≤ i) (hi' : i < 16) :
    (keySetup c key).s[i] = c.s[i] := by
  simp [keySetup, hi.not_gt, show ¬ i < 4 by omega]

theorem nonceSetup_key (c : CipherCtx) (nonce : List Byte) {i : Nat} (hi : i < 12) :
    (nonceSetup c nonce).s[i] = c.s[i] := by
  simp [nonceSetup, show 12 ≠ i by omega, show 13 ≠ i by omega, show 14 ≠ i by omega, show 15 ≠ i by omega]

theorem nonceSetup_nonce_low (c : CipherCtx) (nonce : List Byte) :
    (nonceSetup c nonce).s[14] = fromLE32 (nonce.take 4) := by
  simp [nonceSetup]

theorem nonceSetup_nonce_high (c : CipherCtx) (nonce : List Byte) :
    (nonceSetup c nonce).s[15] = fromLE32 ((nonce.drop 4).take 4) := by
  simp [nonceSetup]

/-! ### The cipher commands -/

theorem exec_ciphKey (s : State) {key : List Byte} (hlen : key.length = 32) : exec (.ciphKey 0 key) s =
    .next ({ s with cs := keySetup s.cs key, ck := true }.respond []) :=
  exec_of_passed (by simp [Instr.checks, argZero, lenIs, hlen])

theorem exec_ciphNonce (s : State) {nonce : List Byte} (hlen : nonce.length = 8) : exec (.ciphNonce 0 nonce) s =
    .next ({ s with cs := nonceSetup s.cs nonce, cn := true }.respond []) :=
  exec_of_passed (by simp [Instr.checks, argZero, lenIs, hlen])

theorem exec_ciphBlock {s : State} (hck : s.ck = true) (hcn : s.cn = true) (hx : s.cs.x = false) :
    exec (.ciphBlock 0 []) s = .next ({ s with cs := increment s.cs }.respond (block s.cs.s)) := by
  rw [exec_of_passed (by simp [Instr.checks, argZero, lenIs, keyed, hck, hcn]), Instr.finished, hx]
  rfl

/-- Settles O43: the key setup, word by word. -/
theorem ciphKeyLoadsConstantsAndKey : Obligations.CiphKeyLoadsConstantsAndKey := by
  intro s key hlen
  have hconstants := keySetup_hasConstants s.cs key
  refine ⟨_, exec_ciphKey s hlen, rfl, hconstants 0, hconstants 1, hconstants 2, hconstants 3, fun i hi hi' => ?_,
    fun i hi => keySetup_counter s.cs key hi i.isLt⟩
  exact (keySetup_key s.cs key hi hi').trans (fromLE32_take_drop key _)

/-- Settles O44: the nonce setup, word by word. -/
theorem ciphNonceLoadsTheNonce : Obligations.CiphNonceLoadsTheNonce := by
  intro s nonce hlen
  refine ⟨_, exec_ciphNonce s hlen, rfl, by simp [nonceSetup], by simp [nonceSetup], ?_, ?_,
    fun i hi => nonceSetup_key s.cs nonce hi⟩
  · exact (nonceSetup_nonce_low s.cs nonce).trans (fromLE32_take_drop nonce 0)
  · exact (nonceSetup_nonce_high s.cs nonce).trans (fromLE32_take_drop nonce 4)

/-- Settles O45: on a context that is not exhausted the command counts once. -/
theorem ciphBlockOutputsTheKeystreamBlock : Obligations.CiphBlockOutputsTheKeystreamBlock := by
  intro s hck hcn hx
  refine ⟨_, exec_ciphBlock hck hcn hx, rfl, increment_counter s.cs, fun i => increment_getElem s.cs i i.isLt, ?_⟩
  exact (increment_x s.cs).trans (by rw [hx, Bool.false_or])

end Sys2Proof.Machine
end

section
/-! SUPPORT. The statements about the generator (44_prg.md): who seeds it, what a seed and a stir do to its words, which
bytes of its stream a `Fill` serves, and what the rejection loop of `Uniform` draws.

`Fill` copies from the buffer in pieces; `fill_succ` says that this is serving byte after byte. Everything about the
stream comes from one relation: `Consumed k g g'`, that `g'` is `g` with `k` bytes of its stream taken. A refill takes
none, and `fill_cases` says which bytes a `Fill` takes, whether it completes or raises. -/

namespace Sys2Proof.Machine

/-! ### Who seeds the generator, and who needs it seeded -/

/-- The inversion of an execution with the error named: a command that does not reach its own state has failed a check,
and no check reports `OK`. -/
theorem exec_finished_or_failed {i : Instr} {s t : State} (h : exec i s = .next t) :
    (firstError (i.checks s) = none ∧ t = i.finished s) ∨
    ∃ c ∈ i.checks s, c.1 = true ∧ c.2 ≠ .ok ∧ t = s.raise c.2 := by
  rw [exec_eq_guarded] at h
  rcases s.guarded_cases (i.checks s) (i.finished s) with ⟨hpass, hdone⟩ | ⟨e, herr, hraise⟩
  · rw [hdone] at h
    cases h
    exact .inl ⟨hpass, rfl⟩
  · obtain ⟨c, hmem, hfails, rfl⟩ := firstError_mem herr
    rw [hraise] at h
    cases h
    exact .inr ⟨c, hmem, hfails, checks_status_ne_ok i s c hmem, rfl⟩

@[simp] theorem State.serve_gsd (s : State) (r : Served (List Byte)) : (s.serve r).gsd = s.gsd := by
  cases r <;> rfl

/-- Only a seed and a reset write `GSD` when they complete, and they always answer `OK` then. -/
theorem finished_gsd_cases (i : Instr) (s : State) :
    (i.opcode ≠ 0x40 ∧ (i.finished s).gsd = s.gsd) ∨
    (i.opcode = 0x40 ∧ (i.finished s).gsd = true ∧ (i.finished s).rsp = some .ok) ∨
    (i.opcode = 0x01 ∧ (i.finished s).gsd = false ∧ (i.finished s).rsp = some .ok) := by
  cases i with
  | sysReset arg inp => exact .inr (.inr ⟨rfl, rfl, rfl⟩)
  | prgSeed arg inp => exact .inr (.inl ⟨rfl, rfl, rfl⟩)
  | ciphBlock arg inp => exact .inl ⟨by simp [Instr.opcode], by simp only [Instr.finished]; split <;> rfl⟩
  | prgFill | prgRand8 | prgRand16 | prgRand32 | prgRand64 | prgUniform8 | prgUniform16 | prgUniform32 | prgUniform64 =>
    exact .inl ⟨by simp [Instr.opcode], State.serve_gsd _ _⟩
  | _ => exact .inl ⟨by simp [Instr.opcode], State.respond_gsd _ _⟩

/-- Every generator command but the seed checks that the generator is seeded. -/
theorem seeded_mem_checks {i : Instr} (hunit : unitOf i = 4#4) (hop : i.opcode ≠ 0x40) (s : State) :
    seeded s ∈ i.checks s := by
  cases i with
  | prgSeed arg inp => exact absurd rfl hop
  | prgStir | prgFill | prgRand8 | prgRand16 | prgRand32 | prgRand64 | prgUniform8 | prgUniform16 | prgUniform32
  | prgUniform64 => simp [Instr.checks]
  | _ => simp [unitOf, Instr.opcode] at hunit

/-- Settles O22: a failed check leaves `GSD`, and of the commands that pass theirs only a seed and a reset write it. -/
theorem generatorIsSeededBySeedAlone : Obligations.GeneratorIsSeededBySeedAlone := by
  intro i s t hexec
  rcases exec_finished_or_failed hexec with ⟨hpass, rfl⟩ | ⟨c, -, -, hne, rfl⟩
  · have hneeds : unitOf i = 4#4 → i.opcode ≠ 0x40 → s.gsd = false →
        (i.finished s).rsp ≠ some .ok ∧ (i.finished s).gs = s.gs := fun hunit hop hgsd =>
      absurd ((gsd_of_passed hpass (seeded_mem_checks hunit hop s)).symm.trans hgsd) (by decide)
    rcases finished_gsd_cases i s with ⟨hother, hsame⟩ | ⟨hseed, hset, hok⟩ | ⟨hreset, hclear, hok⟩
    · exact ⟨fun hop => absurd hop hother, fun _ => .inl hsame, hneeds, fun _ => hsame⟩
    · exact ⟨fun _ _ => hset, fun hop => absurd hseed hop, hneeds, fun hrsp => by simp [hok] at hrsp⟩
    · exact ⟨fun hop => absurd (hop.symm.trans hreset) (by decide), fun _ => .inr ⟨hreset, hclear⟩, hneeds,
        fun hrsp => by simp [hok] at hrsp⟩
  · exact ⟨fun _ hok => absurd (Option.some.inj hok) hne, fun _ => .inl rfl,
      fun _ _ _ => ⟨fun hok => hne (Option.some.inj hok), rfl⟩, fun _ => rfl⟩

/-! ### The seed -/

theorem exec_prgSeed (s : State) (inp : List Byte) : exec (.prgSeed 0 inp) s =
    .next ({ s with gs := seededGenerator inp s.gs, gsd := true }.respond []) := exec_of_passed rfl

/-- From a counter whose lowest word is zero an increment writes a one there and nothing else. -/
theorem increment_of_zero {c : CipherCtx} (h : c.s[12] = 0) : increment c = { c with s := c.s.set 12 1 } := by
  simp [increment, h]

theorem seedContext_counter_low (inp : List Byte) (c : CipherCtx) : (seedContext inp c).s[12] = 0 := by
  simp [seedContext, nonceSetup]

theorem seedContext_counter_high (inp : List Byte) (c : CipherCtx) : (seedContext inp c).s[13] = 0 := by
  simp [seedContext, nonceSetup]

theorem seedContext_hasConstants (inp : List Byte) (c : CipherCtx) : (seedContext inp c).HasConstants :=
  (keySetup_hasConstants _ _).nonceSetup _

/-- Bytes read within the first `k` of a string are those of the whole string. -/
theorem take_drop_take {l : List Byte} {m n k : Nat} (h : m + n ≤ k) :
    ((l.take k).drop m).take n = (l.drop m).take n := by
  rw [List.drop_take, List.take_take, Nat.min_eq_left (by omega)]

/-- The key words are read from the first 32 bytes of the digest (R54, R155). -/
theorem seedContext_key (inp : List Byte) (c : CipherCtx) {i : Nat} (hi : 4 ≤ i) (hi' : i < 12) :
    (seedContext inp c).s[i] = fromLE32 (((sha inp).drop (4 * (i - 4))).take 4) := by
  rw [seedContext, nonceSetup_key _ _ hi', keySetup_key _ _ hi hi', take_drop_take (by omega)]

theorem seedContext_nonce_low (inp : List Byte) (c : CipherCtx) :
    (seedContext inp c).s[14] = fromLE32 (((sha inp).drop 32).take 4) := by
  rw [seedContext, nonceSetup_nonce_low, List.take_take, Nat.min_eq_left (by decide)]

theorem seedContext_nonce_high (inp : List Byte) (c : CipherCtx) :
    (seedContext inp c).s[15] = fromLE32 (((sha inp).drop 36).take 4) := by
  rw [seedContext, nonceSetup_nonce_high, take_drop_take (by decide), List.drop_drop]

theorem seededGenerator_words (inp : List Byte) (g : Generator) :
    (seededGenerator inp g).c.s = (seedContext inp g.c).s.set 12 1 := by
  rw [seededGenerator, increment_of_zero (seedContext_counter_low inp g.c)]

theorem seededGenerator_word (inp : List Byte) (g : Generator) {i : Nat} (hi : i < 16) (hne : i ≠ 12) :
    (seededGenerator inp g).c.s[i] = (seedContext inp g.c).s[i] := by
  simp [seededGenerator_words, hne.symm]

/-- The buffer holds the block of the context before its first count. -/
theorem seededGenerator_buf (inp : List Byte) (g : Generator) :
    (seededGenerator inp g).buf.toList = block ((seededGenerator inp g).c.s.set 12 0) := by
  have hbefore : (seededGenerator inp g).c.s.set 12 0 = (seedContext inp g.c).s := by
    rw [seededGenerator_words, Vector.set_set, ← seedContext_counter_low inp g.c, Vector.set_getElem_self]
  rw [hbefore]
  exact memWrite_all _ _ (block_length _)

theorem seededGenerator_x (inp : List Byte) (g : Generator) : (seededGenerator inp g).c.x = false := by
  rw [seededGenerator, increment_of_zero (seedContext_counter_low inp g.c)]
  rfl

/-- Settles O46: the context the seed sets up, word by word, counted once. -/
theorem prgSeedLoadsTheDigest : Obligations.PrgSeedLoadsTheDigest := by
  intro s inp
  have hconstants : (seededGenerator inp s.gs).c.HasConstants := (seededGenerator_tidy inp s.gs).constants
  refine ⟨{ s with gs := seededGenerator inp s.gs, gsd := true, rsp := some .ok, dout := [] }, exec_prgSeed s inp, rfl,
    rfl, seededGenerator_x inp s.gs, ?_, ?_, hconstants 0, hconstants 1, hconstants 2, hconstants 3,
    fun i hi hi' => ?_, ?_, ?_, seededGenerator_buf inp s.gs⟩
  · simp [seededGenerator_words]
  · rw [seededGenerator_word _ _ _ (by decide), seedContext_counter_high]
  · rw [Fin.getElem_fin, seededGenerator_word _ _ _ (by omega), seedContext_key _ _ hi hi']
  · rw [seededGenerator_word _ _ _ (by decide), seedContext_nonce_low]
  · rw [seededGenerator_word _ _ _ (by decide), seedContext_nonce_high]

/-! ### The stir -/

theorem exec_prgStir {s : State} (hgsd : s.gsd = true) (inp : List Byte) : exec (.prgStir 0 inp) s =
    .next ({ s with gs := stirGenerator inp s.gs }.respond []) :=
  exec_of_passed (by simp [Instr.checks, argZero, seeded, hgsd])

/-- What a stir XORs into the word `i`: the digest into the key and the nonce words, nothing into the others (R178). -/
def stirMask (inp : List Byte) (i : Nat) : Word32 :=
  if 4 ≤ i ∧ i < 12 then fromLE32 (((sha inp).drop (4 * (i - 4))).take 4)
  else if 14 ≤ i then fromLE32 (((sha inp).drop (4 * (i - 6))).take 4)
  else 0

theorem stirMask_key (inp : List Byte) {i : Nat} (hi : 4 ≤ i) (hi' : i < 12) :
    stirMask inp i = fromLE32 (((sha inp).drop (4 * (i - 4))).take 4) := if_pos ⟨hi, hi'⟩

theorem stirMask_other (inp : List Byte) {i : Nat} (hi : i < 4 ∨ i = 12 ∨ i = 13) : stirMask inp i = 0 := by
  rw [stirMask, if_neg (by omega), if_neg (by omega)]

theorem stirGenerator_word (inp : List Byte) (g : Generator) {i : Nat} (hi : i < 16) :
    (stirGenerator inp g).c.s[i] = g.c.s[i] ^^^ stirMask inp i := by
  simp only [stirGenerator, stirMask, Vector.getElem_ofFn]
  split_ifs
  · rfl
  · rfl
  · exact BitVec.xor_zero.symm

/-- Settles O47: the mask of each word. -/
theorem prgStirXorsTheDigest : Obligations.PrgStirXorsTheDigest := by
  intro s inp hgsd
  have hword : ∀ i : Fin 16, (stirGenerator inp s.gs).c.s[i] = s.gs.c.s[i] ^^^ stirMask inp i := fun i =>
    stirGenerator_word inp s.gs i.isLt
  refine ⟨_, exec_prgStir hgsd inp, rfl, fun i hi => ?_, fun i hi hi' => ?_, hword 14, hword 15⟩
  · exact (hword i).trans (by rw [stirMask_other inp hi]; exact BitVec.xor_zero)
  · exact (hword i).trans (by rw [stirMask_key inp hi hi'])

@[simp] theorem stirGenerator_x (inp : List Byte) (g : Generator) : (stirGenerator inp g).c.x = g.c.x := by
  simp only [stirGenerator]

theorem Generator.ext_fields {g g' : Generator} (hs : g.c.s = g'.c.s) (hx : g.c.x = g'.c.x) (hbuf : g.buf = g'.buf)
    (hoff : g.off = g'.off) : g = g' := by
  obtain ⟨⟨s, x⟩, buf, off⟩ := g
  obtain ⟨⟨s', x'⟩, buf', off'⟩ := g'
  cases hs
  cases hx
  cases hbuf
  cases hoff
  rfl

theorem stirGenerator_stirGenerator (inp : List Byte) (g : Generator) :
    stirGenerator inp (stirGenerator inp g) = g := by
  refine Generator.ext_fields (Vector.ext fun i hi => ?_) (by simp) (by simp) (by simp)
  rw [stirGenerator_word _ _ hi, stirGenerator_word _ _ hi, BitVec.xor_assoc, BitVec.xor_self]
  exact BitVec.xor_zero

/-- Settles O48: XORing the same mask twice gives every word back, and nothing else is touched. -/
theorem stirringTwiceRestoresTheGenerator : Obligations.StirringTwiceRestoresTheGenerator :=
  stirGenerator_stirGenerator

/-! ### One procedure after another -/

@[simp] theorem Served.map_map {α β γ : Type} (f : α → β) (h : β → γ) (r : Served α) :
    (r.map f).map h = r.map (h ∘ f) := by
  cases r <;> rfl

/-- Bytes served by `r`, and behind them those served from the generator `r` leaves; a raise ends both. -/
def Served.andThen (r : Served (List Byte)) (next : Generator → Served (List Byte)) : Served (List Byte) :=
  match r with
  | .done out g => (next g).map (out ++ ·)
  | .raised e g => .raised e g

@[simp] theorem Served.andThen_done (out : List Byte) (g : Generator) (next : Generator → Served (List Byte)) :
    (Served.done out g).andThen next = (next g).map (out ++ ·) := rfl

@[simp] theorem Served.andThen_raised (e : Status) (g : Generator) (next : Generator → Served (List Byte)) :
    (Served.raised e g).andThen next = .raised e g := rfl

theorem Served.andThen_assoc (r : Served (List Byte)) (f h : Generator → Served (List Byte)) :
    (r.andThen f).andThen h = r.andThen fun g => (f g).andThen h := by
  cases r with
  | raised e g => rfl
  | done out g =>
    cases hf : f g with
    | raised e g' => simp [hf]
    | done out' g' => simp [hf, Function.comp_def]

/-! ### `Fill`, byte by byte -/

theorem refill_of_buffered {g : Generator} (h : g.off.val ≠ 64) : refill g = .ok g := by
  simp [refill, h]

@[simp] theorem takeBuffered_zero (g : Generator) : takeBuffered 0 g = ([], g) := by
  simp [takeBuffered, memRead, zeros]

/-- A read behind a write does not see it. -/
theorem memRead_memWrite_behind {N : Nat} (B : Vector Byte N) (i : Nat) (v : List Byte) (n : Nat) :
    memRead (memWrite B i v) (i + v.length) n = memRead B (i + v.length) n := by
  have hdrop : (memWrite B i v).toList.drop (i + v.length) = B.toList.drop (i + v.length) := by
    refine List.ext_getElem (by simp) fun j _ _ => ?_
    simp
  rw [memRead, memRead, hdrop]

theorem memRead_add {N : Nat} (B : Vector Byte N) (i m n : Nat) :
    memRead B i (m + n) = memRead B i m ++ memRead B (i + m) n := by
  rw [memRead, List.take_add, List.drop_drop]
  rfl

/-- Taking bytes in two pieces is taking them in one. -/
theorem takeBuffered_add (i j : Nat) (g : Generator) (h : i + j ≤ 64 - g.off.val) :
    takeBuffered (i + j) g =
      ((takeBuffered i g).1 ++ (takeBuffered j (takeBuffered i g).2).1, (takeBuffered j (takeBuffered i g).2).2) := by
  have hoff : (takeBuffered i g).2.off.val = g.off.val + i := takeBuffered_off (by omega)
  have hread : memRead (takeBuffered i g).2.buf (g.off.val + i) j = memRead g.buf (g.off.val + i) j := by
    have hbehind := memRead_memWrite_behind g.buf g.off.val (zeros i) j
    rwa [zeros_length] at hbehind
  have hwrite : memWrite (takeBuffered i g).2.buf (g.off.val + i) (zeros j) =
      memWrite g.buf g.off.val (zeros (i + j)) := by
    rw [zeros_add, memWrite_append, zeros_length]
    rfl
  have hsecond : takeBuffered j (takeBuffered i g).2 =
      (memRead g.buf (g.off.val + i) j,
        { g with buf := memWrite g.buf g.off.val (zeros (i + j)), off := Fin.ofNat 65 (g.off.val + i + j) }) := by
    rw [takeBuffered, hoff, hread, hwrite, takeBuffered_c]
  rw [hsecond, Nat.add_assoc, takeBuffered, memRead_add]
  rfl

/-- What the loop has copied before stands in front of what it copies now. -/
theorem fillLoop_eq_map (turns k : Nat) (out : List Byte) (g : Generator) :
    fillLoop turns k out g = (fillLoop turns k [] g).map (out ++ ·) := by
  induction turns generalizing k out g with
  | zero => simp [fillLoop]
  | succ turns ih =>
    by_cases hk : k = 0
    · simp [hk]
    · rw [fillLoop_turn _ _ hk, fillLoop_turn _ _ hk]
      cases refill g with
      | error e => rfl
      | ok g' =>
        dsimp only
        rw [ih, ih (out := [] ++ _)]
        simp [Function.comp_def]

theorem fill_of_refill_error {k : Nat} {e : Status} {g : Generator} (hr : refill g = .error e) (hk : k ≠ 0) :
    fill k g = .raised e g := by
  obtain ⟨n, rfl⟩ := Nat.exists_eq_succ_of_ne_zero hk
  rw [fill, fillLoop_turn _ _ hk, hr]

/-- One turn of `Fill` takes what it can from the buffer and leaves the rest to a shorter `Fill`. -/
theorem fill_of_refill_ok {k j : Nat} {g g' : Generator} (hr : refill g = .ok g') (hk : k ≠ 0)
    (hj : j = min k (64 - g'.off.val)) :
    fill k g = (fill (k - j) (takeBuffered j g').2).map ((takeBuffered j g').1 ++ ·) := by
  obtain ⟨n, rfl⟩ := Nat.exists_eq_succ_of_ne_zero hk
  have hoff := refill_off_lt hr
  rw [fill, fillLoop_turn _ _ hk, hr]
  dsimp only
  rw [← hj, List.nil_append, fillLoop_fuel _ _ _ _ (by omega), fillLoop_eq_map, fill]

theorem fill_one_of_refill_ok {g g' : Generator} (hr : refill g = .ok g') :
    fill 1 g = .done (takeBuffered 1 g').1 (takeBuffered 1 g').2 := by
  have hoff := refill_off_lt hr
  rw [fill_of_refill_ok (j := 1) hr one_ne_zero (by omega)]
  simp

/-- `Fill` serves one byte and then the rest: how many it takes from the buffer at once makes no difference. -/
theorem fill_succ (k : Nat) (g : Generator) : fill (k + 1) g = (fill 1 g).andThen (fill k) := by
  cases hr : refill g with
  | error e => rw [fill_of_refill_error hr k.succ_ne_zero, fill_of_refill_error hr one_ne_zero, Served.andThen_raised]
  | ok g' =>
    have hoff := refill_off_lt hr
    have htaken : (takeBuffered 1 g').2.off.val = g'.off.val + 1 := takeBuffered_off (by omega)
    rw [fill_one_of_refill_ok hr, Served.andThen_done,
      fill_of_refill_ok (j := 1 + min k (63 - g'.off.val)) hr k.add_one_ne_zero (by omega),
      takeBuffered_add _ _ _ (by omega), Nat.add_comm 1 (min k _), Nat.add_sub_add_right]
    by_cases hmore : min k (63 - g'.off.val) = 0
    · simp [hmore]
    · have hrefill : refill (takeBuffered 1 g').2 = .ok (takeBuffered 1 g').2 := refill_of_buffered (by omega)
      rw [fill_of_refill_ok (k := k) hrefill (by omega) (by rw [htaken, Nat.sub_add_eq, Nat.sub_right_comm])]
      simp [Function.comp_def]

/-- The concatenation law of R179. -/
theorem fill_add (a b : Nat) (g : Generator) : fill (a + b) g = (fill a g).andThen (fill b) := by
  induction a generalizing g with
  | zero =>
    rw [Nat.zero_add, fill_zero, Served.andThen_done]
    cases fill b g <;> rfl
  | succ a ih =>
    have hrest : fill (a + b) = fun g => (fill a g).andThen (fill b) := funext ih
    rw [Nat.succ_add_eq_add_succ, Nat.add_succ, fill_succ, hrest, ← Served.andThen_assoc, ← fill_succ]

/-- Settles O52: the law, with the two ways each fill can end told apart. -/
theorem fillsConcatenate : Obligations.FillsConcatenate := by
  intro a b g
  rw [fill_add]
  cases fill a g with
  | raised e g' => rfl
  | done x g' =>
    dsimp only [Served.andThen_done]
    cases fill b g' <;> rfl

/-! ### The stream of a generator -/

/-- The bytes the offset has gone past are zero (R33 (b)). -/
def Generator.ServedZeroed (g : Generator) : Prop := ∀ i : Fin 64, i.val < g.off.val → g.buf[i] = 0

/-- `g'` is `g` after the next `k` bytes of its stream have been taken, whether they were put out or lost. -/
structure Consumed (k : Nat) (g g' : Generator) : Prop where
  bytesLeft : g.bytesLeft = k + g'.bytesLeft
  stream : ∀ m, streamByte g' m = streamByte g (k + m)
  servedZeroed : g.ServedZeroed → g'.ServedZeroed
  fixedWords : ∀ i : Fin 16, i.val < 12 ∨ i.val = 15 → g'.c.s[i] = g.c.s[i]

theorem Consumed.refl (g : Generator) : Consumed 0 g g where
  bytesLeft := (Nat.zero_add _).symm
  stream m := by rw [Nat.zero_add]
  servedZeroed := id
  fixedWords _ _ := rfl

theorem Consumed.trans {j k : Nat} {g₁ g₂ g₃ : Generator} (h : Consumed j g₁ g₂) (h' : Consumed k g₂ g₃) :
    Consumed (j + k) g₁ g₃ where
  bytesLeft := by rw [h.bytesLeft, h'.bytesLeft, Nat.add_assoc]
  stream m := by rw [h'.stream, h.stream, Nat.add_assoc]
  servedZeroed := h'.servedZeroed ∘ h.servedZeroed
  fixedWords i hi := (h'.fixedWords i hi).trans (h.fixedWords i hi)

/-- What the buffer still holds comes first in the stream. -/
theorem streamByte_of_buffered {g : Generator} {m : Nat} (h : m < 64 - g.off.val) :
    streamByte g m = g.buf.toList.getD (g.off.val + m) 0 := if_pos h

/-- Behind it comes the keystream of the context. -/
theorem streamByte_of_unbuffered {g : Generator} {m : Nat} (h : 64 - g.off.val ≤ m) :
    streamByte g m = keystreamByte g.c (m - (64 - g.off.val)) := if_neg h.not_gt

theorem keystreamByte_of_lt (c : CipherCtx) {m : Nat} (h : m < 64) : keystreamByte c m = (block c.s).getD m 0 := by
  rw [keystreamByte, Nat.div_eq_of_lt h, Nat.mod_eq_of_lt h, iterate_zero]

/-- The keystream behind the first block is that of the context counted up once. -/
theorem keystreamByte_increment (c : CipherCtx) (m : Nat) :
    keystreamByte (increment c) m = keystreamByte c (64 + m) := by
  rw [keystreamByte, keystreamByte, show (64 + m) / 64 = m / 64 + 1 by omega, show (64 + m) % 64 = m % 64 by omega,
    iterate_succ]

/-- The stream of a generator whose buffer has just been filled is the keystream of the context before it. -/
theorem streamByte_of_filled (c : CipherCtx) (buf : Vector Byte 64) (m : Nat) :
    streamByte { c := increment c, buf := memWrite buf 0 (block c.s), off := 0 } m = keystreamByte c m := by
  rcases Nat.lt_or_ge m 64 with hlt | hge
  · rw [streamByte_of_buffered (by simpa using hlt), keystreamByte_of_lt c hlt]
    dsimp only
    rw [memWrite_all _ _ (block_length _)]
    simp
  · rw [streamByte_of_unbuffered (by simpa using hge), keystreamByte_increment]
    exact congrArg _ (Nat.add_sub_cancel' hge)

theorem CipherCtx.counter_lt (c : CipherCtx) : c.counter < 2 ^ 96 := by
  have h12 := c.s[12].isLt
  have h13 := c.s[13].isLt
  have h14 := c.s[14].isLt
  unfold CipherCtx.counter
  omega

/-- A refill moves the next 64 bytes from the context to the buffer and takes none. -/
theorem bytesLeft_of_filled {c : CipherCtx} (hx : c.x = false) (buf buf' : Vector Byte 64) :
    ({ c := c, buf := buf, off := 64 } : Generator).bytesLeft =
      ({ c := increment c, buf := buf', off := 0 } : Generator).bytesLeft := by
  have hlt := c.counter_lt
  rcases increment_counter_cases c with ⟨-, hcounter, hx'⟩ | ⟨hwrap, -, hx'⟩
  · simp [Generator.bytesLeft, hx, hx', hcounter]
    omega
  · simp [Generator.bytesLeft, hx, hx']
    omega

/-- A refill takes no byte of the stream. -/
theorem Consumed.refill {g g' : Generator} (hr : refill g = .ok g') : Consumed 0 g g' := by
  rcases refill_cases g with ⟨-, heq⟩ | ⟨-, -, heq⟩ | ⟨hoff, hx, heq⟩ <;> rw [heq] at hr <;> cases hr
  · exact .refl g
  · obtain ⟨c, buf, off⟩ := g
    obtain rfl : off = 64 := Fin.ext hoff
    refine ⟨?_, fun m => ?_, fun _ i hi => absurd hi (by simp), fun i hi => increment_getElem c i i.isLt hi⟩
    · rw [Nat.zero_add]
      exact bytesLeft_of_filled hx _ _
    · rw [streamByte_of_filled, Nat.zero_add]
      exact (streamByte_of_unbuffered (Nat.zero_le _)).symm

/-- Bytes taken from the buffer are the next of the stream. -/
theorem Consumed.takeBuffered {j : Nat} {g : Generator} (hj : j ≤ 64 - g.off.val) :
    Consumed j g (takeBuffered j g).2 := by
  have hoff := takeBuffered_off hj
  refine ⟨?_, fun m => ?_, fun hzero i hi => ?_, fun i _ => by rw [takeBuffered_c]⟩
  · rw [Generator.bytesLeft, Generator.bytesLeft, hoff, takeBuffered_c]
    omega
  · rcases Nat.lt_or_ge m (64 - (g.off.val + j)) with hlt | hge
    · rw [streamByte_of_buffered (by omega), streamByte_of_buffered (by omega), hoff, Nat.add_assoc]
      have hin : g.off.val + (j + m) < 64 := by omega
      simp [Machine.takeBuffered, hin]
    · rw [streamByte_of_unbuffered (by omega), streamByte_of_unbuffered (by omega), hoff, takeBuffered_c]
      congr 1
      omega
  · rw [hoff] at hi
    by_cases hserved : i.val < g.off.val
    · have hbefore := hzero i hserved
      simpa [Machine.takeBuffered, hserved.not_ge] using hbefore
    · simp [Machine.takeBuffered, zeros, hi, Nat.le_of_not_lt hserved]

theorem takeBuffered_one_bytes {g : Generator} (h : g.off.val < 64) :
    (takeBuffered 1 g).1 = [streamByte g 0] := by
  rw [streamByte_of_buffered (by omega)]
  simp [takeBuffered, memRead, List.take_one, h]

/-- What a `Fill` of `k` bytes can do: it serves the next `k` bytes of the stream; or the stream has fewer, and all of
them are lost. -/
theorem fill_cases (k : Nat) (g : Generator) :
    (∃ g', fill k g = .done ((List.range k).map (streamByte g)) g' ∧ Consumed k g g') ∨
    (g.bytesLeft < k ∧ ∃ g', fill k g = .raised .eExhausted g' ∧ Consumed g.bytesLeft g g') := by
  induction k generalizing g with
  | zero => exact .inl ⟨g, fill_zero g, .refl g⟩
  | succ k ih =>
    rw [fill_succ]
    cases hr : refill g with
    | error e =>
      obtain ⟨rfl, hoff, hx⟩ := refill_error hr
      have hnone : g.bytesLeft = 0 := by simp [Generator.bytesLeft, hoff, hx]
      rw [fill_of_refill_error hr one_ne_zero, hnone]
      exact .inr ⟨k.succ_pos, g, rfl, .refl g⟩
    | ok g₁ =>
      have hoff := refill_off_lt hr
      have hrefilled := Consumed.refill hr
      have hone : Consumed 1 g (takeBuffered 1 g₁).2 := by
        simpa using hrefilled.trans (.takeBuffered (by omega))
      have hbyte : streamByte g₁ 0 = streamByte g 0 := hrefilled.stream 0
      have hleft := hone.bytesLeft
      rw [fill_one_of_refill_ok hr, takeBuffered_one_bytes hoff, hbyte, Served.andThen_done]
      rcases ih (takeBuffered 1 g₁).2 with ⟨g', hfill, hrest⟩ | ⟨hshort, g', hfill, hrest⟩
      · refine .inl ⟨g', ?_, Nat.add_comm 1 k ▸ hone.trans hrest⟩
        have hstream : streamByte (takeBuffered 1 g₁).2 = fun m => streamByte g (m + 1) :=
          funext fun m => Nat.add_comm 1 m ▸ hone.stream m
        rw [hfill, hstream, List.range_succ_eq_map]
        simp [Function.comp_def]
      · refine .inr ⟨by omega, g', by rw [hfill]; rfl, hleft ▸ hone.trans hrest⟩

/-- A `Fill` of no more bytes than the stream has serves the next of them. -/
theorem fill_of_le {k : Nat} {g : Generator} (h : k ≤ g.bytesLeft) :
    ∃ g', fill k g = .done ((List.range k).map (streamByte g)) g' ∧ Consumed k g g' :=
  (fill_cases k g).resolve_right fun hshort => hshort.1.not_ge h

/-- A `Fill` that does not raise has served the next bytes of the stream. -/
theorem stream_of_fill_done {k : Nat} {out : List Byte} {g g' : Generator} (h : fill k g = .done out g') :
    out = (List.range k).map (streamByte g) ∧ Consumed k g g' := by
  rcases fill_cases k g with ⟨g₁, hfill, hconsumed⟩ | ⟨-, g₁, hfill, -⟩ <;> rw [hfill] at h <;> cases h
  exact ⟨rfl, hconsumed⟩

/-- Settles O53: the seeded generator is a buffer just filled from the context the seed sets up. -/
theorem seededGeneratorServesTheKeystream : Obligations.SeededGeneratorServesTheKeystream := by
  intro inp g g' k hseed hk
  obtain rfl : seededGenerator inp g = g' :=
    Except.ok.inj ((seedGenerator_eq_seededGenerator inp g).symm.trans hseed)
  have hstream : ∀ m, streamByte (seededGenerator inp g) m = keystreamByte (seedContext inp g.c) m :=
    streamByte_of_filled (seedContext inp g.c) g.buf
  obtain ⟨g'', hfill, -⟩ := fill_of_le hk
  rw [funext hstream] at hfill
  exact ⟨g'', hfill⟩

/-! ### The commands that serve bytes -/

theorem exec_prgFill {s : State} (hgsd : s.gsd = true) (len : BitVec 16) :
    exec (.prgFill 0 len) s = .next (s.serve (fill len.toNat s.gs)) :=
  exec_of_passed (by simp [Instr.checks, argZero, seeded, hgsd])

/-- Settles O50: a `Fill` of no more bytes than the stream has. -/
theorem prgFillServesTheStreamInOrder : Obligations.PrgFillServesTheStreamInOrder := by
  intro s len hgsd hlen
  obtain ⟨g', hfill, hconsumed⟩ := fill_of_le hlen
  refine ⟨_, exec_prgFill hgsd len, ?_⟩
  rw [hfill, State.serve_done]
  exact ⟨rfl, rfl, by simp [hconsumed.bytesLeft], fun m _ => hconsumed.stream m, hconsumed.servedZeroed,
    hconsumed.fixedWords⟩

/-- The number `Rand` reads out of the bytes served, put out again, is these bytes. -/
theorem rand_map_leBytes (w : Nat) (g : Generator) : (rand w g).map (leBytes (w / 8)) = fill (w / 8) g := by
  rw [rand]
  cases h : fill (w / 8) g with
  | raised e g' => rfl
  | done out g' =>
    have hlen := fill_done_length h
    simp [← hlen, leBytes_fromLE]

/-- An accessor without payload is the fill of its width. -/
theorem randCommand_eq_prgFill {w : Nat} {len : BitVec 16} (hlen : len.toNat = w / 8) (s : State) :
    randCommand w [] s = exec (.prgFill 0 len) s := by
  rw [randCommand, rand_map_leBytes, exec_eq_guarded, Instr.finished, hlen]
  rfl

/-- A fill of no more bytes than the stream of a seeded generator has completes. -/
theorem prgFill_completes {s : State} (hgsd : s.gsd = true) {len : BitVec 16} (hlen : len.toNat ≤ s.gs.bytesLeft) :
    ∃ t, exec (.prgFill 0 len) s = .next t ∧ t.rsp = some .ok ∧ t.dout.length = len.toNat := by
  obtain ⟨g', hfill, -⟩ := fill_of_le hlen
  exact ⟨_, exec_prgFill hgsd len, by simp [hfill]⟩

/-- Settles O54: the accessor and the fill make the same check, and the number in between is read and put out again. -/
theorem prgRandIsAFillOfItsWidth : Obligations.PrgRandIsAFillOfItsWidth := by
  intro s
  have h8 : exec (.prgRand8 []) s = exec (.prgFill 0 1) s := randCommand_eq_prgFill rfl s
  have h16 : exec (.prgRand16 []) s = exec (.prgFill 0 2) s := randCommand_eq_prgFill rfl s
  have h32 : exec (.prgRand32 []) s = exec (.prgFill 0 4) s := randCommand_eq_prgFill rfl s
  have h64 : exec (.prgRand64 []) s = exec (.prgFill 0 8) s := randCommand_eq_prgFill rfl s
  refine ⟨⟨h8, h16, h32, h64⟩, fun hgsd => ?_⟩
  rw [h8, h16, h32, h64]
  exact ⟨prgFill_completes (len := 1) hgsd, prgFill_completes (len := 2) hgsd, prgFill_completes (len := 4) hgsd,
    prgFill_completes (len := 8) hgsd⟩

/-! ### Bounded draws -/

/-- The value of the draw number `j` of `n` bytes, from the next one on. -/
def drawAt (n : Nat) (g : Generator) (j : Nat) : Nat :=
  fromLE ((List.range n).map fun m => streamByte g (n * j + m))

/-- The draws behind the first are those of the generator the first leaves. -/
theorem Consumed.drawAt {n : Nat} {g g' : Generator} (h : Consumed n g g') (j : Nat) :
    drawAt n g' j = drawAt n g (j + 1) := by
  simp only [Machine.drawAt, h.stream, Nat.mul_succ, Nat.add_comm (n * j) n, Nat.add_assoc]

/-- `Rand` on a stream that has the bytes. -/
theorem rand_of_fill_done {n : Nat} {g g' : Generator}
    (h : fill n g = .done ((List.range n).map (streamByte g)) g') : rand (8 * n) g = .done (drawAt n g 0) g' := by
  simp [rand, h, drawAt]

/-- A `Rand` that does not raise has taken the bytes of its width. -/
theorem consumed_of_rand_done {w r : Nat} {g g' : Generator} (h : rand w g = .done r g') : Consumed (w / 8) g g' := by
  rw [rand] at h
  cases hfill : fill (w / 8) g with
  | raised e g₁ => simp [hfill] at h
  | done out g₁ =>
    simp only [hfill, Served.map_done, Served.done.injEq] at h
    obtain ⟨-, rfl⟩ := h
    exact (stream_of_fill_done hfill).2

/-- One turn of the rejection loop whose draw is accepted. -/
theorem drawLoop_of_accepted {w ub t draws r : Nat} {g g' : Generator} (hr : rand w g = .done r g') (h : t ≤ r) :
    drawLoop w ub t (draws + 1) g = .done (r % ub) g' := by
  simp [drawLoop, hr, h]

/-- One turn of the rejection loop whose draw is rejected. -/
theorem drawLoop_of_rejected {w ub t draws r : Nat} {g g' : Generator} (hr : rand w g = .done r g') (h : r < t) :
    drawLoop w ub t (draws + 1) g = drawLoop w ub t draws g' := by
  simp [drawLoop, hr, h.not_ge]

theorem drawLoop_of_raised {w ub t draws : Nat} {e : Status} {g g' : Generator} (hr : rand w g = .raised e g') :
    drawLoop w ub t (draws + 1) g = .raised e g' := by
  simp [drawLoop, hr]

/-- A bound on the draws that exceeds the bytes left is never what ends the loop, since every draw takes a byte. -/
theorem drawLoop_bound_irrelevant {w : Nat} (hw : 8 ≤ w) (ub t more : Nat) {draws : Nat} {g : Generator}
    (h : g.bytesLeft < draws) : drawLoop w ub t (draws + more) g = drawLoop w ub t draws g := by
  induction draws generalizing g with
  | zero => omega
  | succ draws ih =>
    rw [Nat.add_right_comm]
    cases hr : rand w g with
    | raised e g' => rw [drawLoop_of_raised hr, drawLoop_of_raised hr]
    | done r g' =>
      have hleft := (consumed_of_rand_done hr).bytesLeft
      rcases Nat.lt_or_ge r t with hreject | haccept
      · rw [drawLoop_of_rejected hr hreject, drawLoop_of_rejected hr hreject, ih (by omega)]
      · rw [drawLoop_of_accepted hr haccept, drawLoop_of_accepted hr haccept]

/-- Settles O57: the bound exceeds the bytes left. -/
theorem drawLoopEndsByItself : Obligations.DrawLoopEndsByItself :=
  fun _ ub t more g hw => drawLoop_bound_irrelevant (by omega) ub t more g.bytesLeft.lt_succ_self

/-- `d` rejected draws and an accepted one take the bytes of these draws and give the last modulo the bound. -/
theorem drawLoop_of_first_accepted {n ub t d draws : Nat} {g : Generator} (hd : d < draws)
    (hleft : n * (d + 1) ≤ g.bytesLeft) (hreject : ∀ j < d, drawAt n g j < t) (haccept : t ≤ drawAt n g d) :
    ∃ out g', fill (n * (d + 1)) g = .done out g' ∧
      drawLoop (8 * n) ub t draws g = .done (drawAt n g d % ub) g' := by
  induction d generalizing g draws with
  | zero =>
    obtain ⟨draws, rfl⟩ := Nat.exists_eq_succ_of_ne_zero hd.ne'
    rw [Nat.mul_one] at hleft ⊢
    obtain ⟨g', hfill, -⟩ := fill_of_le hleft
    exact ⟨_, g', hfill, drawLoop_of_accepted (rand_of_fill_done hfill) haccept⟩
  | succ d ih =>
    obtain ⟨draws, rfl⟩ := Nat.exists_eq_succ_of_ne_zero (Nat.ne_zero_of_lt hd)
    rw [Nat.mul_succ, Nat.add_comm] at hleft ⊢
    obtain ⟨g₁, hfill, hconsumed⟩ := fill_of_le (Nat.le_of_add_right_le hleft)
    have hleft₁ := hconsumed.bytesLeft
    obtain ⟨out, g', hrest, hloop⟩ := ih (g := g₁) (Nat.lt_of_succ_lt_succ hd) (by omega)
      (fun j hj => hconsumed.drawAt j ▸ hreject (j + 1) (Nat.succ_lt_succ hj)) (hconsumed.drawAt d ▸ haccept)
    refine ⟨_, g', by rw [fill_add, hfill, Served.andThen_done, hrest, Served.map_done], ?_⟩
    rw [drawLoop_of_rejected (rand_of_fill_done hfill) (hreject 0 d.succ_pos), hloop, hconsumed.drawAt]

theorem uniform_of_le_one {w ub : Nat} (h : ub ≤ 1) (g : Generator) : uniform w ub g = .done 0 g := if_pos h

theorem uniform_of_two_le {w ub : Nat} (h : 2 ≤ ub) (g : Generator) :
    uniform w ub g = drawLoop w ub ((2 ^ w - ub) % ub) (g.bytesLeft + 1) g := if_neg (by omega)

/-- What the rejection loop gives is a remainder of the bound. -/
theorem drawLoop_done_lt {w ub t draws v : Nat} {g g' : Generator} (hub : 0 < ub)
    (h : drawLoop w ub t draws g = .done v g') : v < ub := by
  induction draws generalizing g with
  | zero => cases h
  | succ draws ih =>
    cases hr : rand w g with
    | raised e g₁ =>
      rw [drawLoop_of_raised hr] at h
      cases h
    | done r g₁ =>
      rcases Nat.lt_or_ge r t with hreject | haccept
      · rw [drawLoop_of_rejected hr hreject] at h
        exact ih h
      · rw [drawLoop_of_accepted hr haccept] at h
        cases h
        exact Nat.mod_lt r hub

/-- Settles O58: a bound of 0 or 1 gives 0, and every other a remainder. -/
theorem uniformIsBelowItsBound : Obligations.UniformIsBelowItsBound := by
  intro w ub v g g' h
  rcases Nat.lt_or_ge 1 ub with hlarge | hsmall
  · rw [uniform_of_two_le hlarge] at h
    exact lt_max_of_lt_left (drawLoop_done_lt (Nat.zero_lt_of_lt hlarge) h)
  · rw [uniform_of_le_one hsmall] at h
    cases h
    exact lt_max_of_lt_right one_pos

/-- The uniform commands by the number of bytes they draw: `n` of 1, 2, 4 or 8. -/
def UniformOfBytes (i : Instr) (inp : List Byte) (n : Nat) : Prop :=
  i = .prgUniform8 inp ∧ n = 1 ∨ i = .prgUniform16 inp ∧ n = 2 ∨ i = .prgUniform32 inp ∧ n = 4 ∨
    i = .prgUniform64 inp ∧ n = 8

theorem UniformOfBytes.pos {i : Instr} {inp : List Byte} {n : Nat} (h : UniformOfBytes i inp n) : 0 < n := by
  rcases h with ⟨-, rfl⟩ | ⟨-, rfl⟩ | ⟨-, rfl⟩ | ⟨-, rfl⟩ <;> decide

/-- A uniform command with a payload of its width, on a seeded generator. -/
theorem UniformOfBytes.exec_eq {i : Instr} {inp : List Byte} {n : Nat} (h : UniformOfBytes i inp n)
    (hlen : inp.length = n) {s : State} (hgsd : s.gsd = true) :
    exec i s = .next (s.serve ((uniform (8 * n) (fromLE inp) s.gs).map (leBytes n))) := by
  rcases h with ⟨rfl, rfl⟩ | ⟨rfl, rfl⟩ | ⟨rfl, rfl⟩ | ⟨rfl, rfl⟩ <;>
    exact exec_of_passed (by simp [Instr.checks, lenIs, seeded, hlen, hgsd])

theorem leBytes_zero (n : Nat) : leBytes n 0 = List.replicate n 0 := by
  induction n with
  | zero => rfl
  | succ n ih => simp [leBytes, ih, List.replicate_succ]

/-- A uniform command of a bound below 2 puts out zero bytes and leaves the generator as it is. -/
theorem UniformOfBytes.exec_of_le_one {i : Instr} {inp : List Byte} {n : Nat} (h : UniformOfBytes i inp n)
    (hlen : inp.length = n) {s : State} (hgsd : s.gsd = true) (hbound : fromLE inp ≤ 1) :
    exec i s = .next (s.respond (List.replicate n 0)) := by
  rw [h.exec_eq hlen hgsd, uniform_of_le_one hbound, Served.map_done, State.serve_done, leBytes_zero]

/-- Settles O55: each width is a uniform command of a bound below 2. -/
theorem uniformOfATrivialBoundConsumesNothing : Obligations.UniformOfATrivialBoundConsumesNothing := by
  intro s inp hgsd hbound
  have hcommand {i n} (h : UniformOfBytes i inp n) (hlen : inp.length = n) :=
    h.exec_of_le_one hlen hgsd hbound
  exact ⟨hcommand (.inl ⟨rfl, rfl⟩), hcommand (.inr (.inl ⟨rfl, rfl⟩)), hcommand (.inr (.inr (.inl ⟨rfl, rfl⟩))),
    hcommand (.inr (.inr (.inr ⟨rfl, rfl⟩)))⟩

/-- Settles O56: the rejection loop makes the `d + 1` draws, since its bound exceeds the bytes left. -/
theorem uniformOutputsTheFirstAcceptedDraw : Obligations.UniformOutputsTheFirstAcceptedDraw := by
  intro s inp d n i hi hlen hgsd hbound hleft draw t hreject haccept
  have hcommand : UniformOfBytes i inp n := hi
  have hd : d < s.gs.bytesLeft + 1 := by
    have hdraws : d + 1 ≤ n * (d + 1) := Nat.le_mul_of_pos_left _ hcommand.pos
    omega
  obtain ⟨out, g', hfill, hloop⟩ :=
    drawLoop_of_first_accepted (ub := fromLE inp) hd hleft hreject haccept
  obtain ⟨rfl, -⟩ := stream_of_fill_done hfill
  refine ⟨_, g', hcommand.exec_eq hlen hgsd, hfill, ?_⟩
  rw [uniform_of_two_le hbound, hloop]
  rfl

end Sys2Proof.Machine
end

section
/-! SUPPORT. The statements about the system commands (45_system.md). The bytes that `SYS_STATUS` puts out come off the
register one at a time: the last byte of a concatenation is the first of its little-endian bytes
(`leBytes_append_byte`), so `STATUS` has only to be split at its byte boundaries (`statusReg_eq_append`). -/

namespace Sys2Proof.Machine

/-- Settles O23: a reset that passes its checks clears every field and answers. -/
theorem sysResetRestoresTheResetState : Obligations.SysResetRestoresTheResetState := exec_sysReset

theorem exec_sysStatus (s : State) : exec (.sysStatus 0 []) s = .next (s.respond (le32 s.statusReg)) :=
  exec_of_passed rfl

/-- The byte below a bit vector is the first of its little-endian bytes, and those of the bit vector follow. -/
theorem leBytes_append_byte {w : Nat} (n : Nat) (x : BitVec w) (b : Byte) :
    leBytes (n + 1) (x ++ b).toNat = b :: leBytes n x.toNat := by
  have hlow : BitVec.ofNat 8 (x ++ b).toNat = b := BitVec.eq_of_toNat_eq (by
    rw [toNat_append_byte, BitVec.toNat_ofNat]
    omega)
  have hrest : (x ++ b).toNat / 256 = x.toNat := by
    rw [toNat_append_byte]
    omega
  rw [leBytes, hlow, hrest]

/-- Bits 15 to 8 of `STATUS`: a reserved zero, the five flags and `HMODE` (10_state.md R36). -/
def State.flagByte (s : State) : Byte :=
  0#1 ++ BitVec.ofBool s.gs.c.x ++ BitVec.ofBool s.gsd ++ BitVec.ofBool s.cs.x ++ BitVec.ofBool s.cn
    ++ BitVec.ofBool s.ck ++ s.hmode.code

/-- `STATUS` at its byte boundaries: of the seventeen reserved bits one belongs to the byte of the flags. -/
theorem State.statusReg_eq_append (s : State) : s.statusReg = 0#16 ++ s.flagByte ++ s.err.code := by
  apply BitVec.eq_of_toNat_eq
  unfold State.statusReg State.flagByte
  repeat rw [BitVec.toNat_append]
  simp

theorem State.le32_statusReg (s : State) : le32 s.statusReg = [s.err.code, s.flagByte, 0, 0] := by
  rw [le32, s.statusReg_eq_append, leBytes_append_byte, leBytes_append_byte, BitVec.toNat_ofNat, Nat.zero_mod,
    leBytes_zero]
  rfl

/-- Settles O24: the response is the bytes of the register, and a response is all that changes. -/
theorem sysStatusOutputsTheFlags : Obligations.SysStatusOutputsTheFlags := by
  intro s
  rw [exec_sysStatus, s.le32_statusReg]
  rfl

end Sys2Proof.Machine
end

section
/-! SUPPORT. The statements about errors (60_exceptions.md): which check is reported, how a command that passes its checks
can still end, and what the latch says about a run.

A command that passes its checks completes, finds its cipher context exhausted, or runs out of the stream of its generator
(`finished_ending`). Running out takes all the bytes the generator had left, so the generator it leaves has none
(`Consumed.exhausted`): its buffer is empty and its flag set. -/

namespace Sys2Proof

open Sys2Proof.Machine

/-- The commands that serve from the generator, and so the ones that can find its stream too short (R227). -/
def Instr.Serves (i : Instr) : Prop :=
  (∃ arg len, i = .prgFill arg len) ∨ (∃ inp, i = .prgRand8 inp) ∨ (∃ inp, i = .prgRand16 inp) ∨
    (∃ inp, i = .prgRand32 inp) ∨ (∃ inp, i = .prgRand64 inp) ∨ (∃ inp, i = .prgUniform8 inp) ∨
    (∃ inp, i = .prgUniform16 inp) ∨ (∃ inp, i = .prgUniform32 inp) ∨ (∃ inp, i = .prgUniform64 inp)

end Sys2Proof

namespace Sys2Proof.Machine

/-! ### A generator at the end of its stream -/

/-- A generator with no byte left has an empty buffer and the flag set. -/
theorem exhausted_of_bytesLeft {g : Generator} (h : g.bytesLeft = 0) : g.c.x = true ∧ g.off.val = 64 := by
  have hcounter := g.c.counter_lt
  have hoff := g.off.isLt
  obtain ⟨hbuf, hkeystream⟩ := Nat.add_eq_zero_iff.1 h
  cases hx : g.c.x with
  | true => exact ⟨rfl, by omega⟩
  | false =>
    rw [hx] at hkeystream
    simp only [Bool.false_eq_true, if_false] at hkeystream
    omega

/-- A generator all of whose stream has been taken. -/
theorem Consumed.exhausted {g g' : Generator} (h : Consumed g.bytesLeft g g') : g'.c.x = true ∧ g'.off.val = 64 :=
  exhausted_of_bytesLeft (Nat.left_eq_add.1 h.bytesLeft)

/-- With every byte of the buffer handed out, all of it is zero. -/
theorem Generator.ServedZeroed.buf_eq_zero {g : Generator} (h : g.ServedZeroed) (hoff : g.off.val = 64) :
    g.buf = Vector.replicate 64 0 := by
  refine Vector.ext fun j hj => ?_
  rw [Vector.getElem_replicate]
  exact h ⟨j, hj⟩ (hj.trans_eq hoff.symm)

/-- A procedure on `g` that raises nothing but `E_EXHAUSTED`, and only when it has taken the whole stream of `g`. -/
def Served.RaisesAtEndOf {α : Type} (g : Generator) (r : Served α) : Prop :=
  ∀ e g', r = .raised e g' → e = .eExhausted ∧ Consumed g.bytesLeft g g'

theorem Served.RaisesAtEndOf.map {α β : Type} {g : Generator} {r : Served α} (h : r.RaisesAtEndOf g) (f : α → β) :
    (r.map f).RaisesAtEndOf g := by
  intro e g' hr
  cases r with
  | done a g₁ => cases hr
  | raised e₁ g₁ =>
    cases hr
    exact h e g' rfl

theorem fill_raisesAtEnd (k : Nat) (g : Generator) : (fill k g).RaisesAtEndOf g := by
  intro e g' hr
  rcases fill_cases k g with ⟨g₁, hfill, -⟩ | ⟨-, g₁, hfill, hconsumed⟩ <;> rw [hfill] at hr <;> cases hr
  exact ⟨rfl, hconsumed⟩

theorem rand_raisesAtEnd (w : Nat) (g : Generator) : (rand w g).RaisesAtEndOf g := (fill_raisesAtEnd (w / 8) g).map _

/-- The rejected draws and the one that raises take the whole stream; the bound is not what ends the loop. -/
theorem drawLoop_raisesAtEnd {w : Nat} (hw : 8 ≤ w) (ub t : Nat) {draws : Nat} {g : Generator}
    (h : g.bytesLeft < draws) : (drawLoop w ub t draws g).RaisesAtEndOf g := by
  intro e g' hloop
  induction draws generalizing g with
  | zero => omega
  | succ draws ih =>
    cases hr : rand w g with
    | raised e₁ g₁ =>
      rw [drawLoop_of_raised hr] at hloop
      cases hloop
      exact rand_raisesAtEnd w g e g' hr
    | done r g₁ =>
      have hdraw := consumed_of_rand_done hr
      have hleft := hdraw.bytesLeft
      rcases Nat.lt_or_ge r t with hreject | haccept
      · rw [drawLoop_of_rejected hr hreject] at hloop
        obtain ⟨he, hrest⟩ := ih (by omega) hloop
        exact ⟨he, hleft ▸ hdraw.trans hrest⟩
      · rw [drawLoop_of_accepted hr haccept] at hloop
        cases hloop

theorem uniform_raisesAtEnd {w : Nat} (hw : 8 ≤ w) (ub : Nat) (g : Generator) :
    (uniform w ub g).RaisesAtEndOf g := by
  rcases Nat.lt_or_ge 1 ub with hlarge | hsmall
  · rw [uniform_of_two_le hlarge]
    exact drawLoop_raisesAtEnd hw ub _ g.bytesLeft.lt_succ_self
  · rw [uniform_of_le_one hsmall]
    exact nofun

/-! ### How a command that passes its checks ends -/

/-- `t` is `s` after a command that ran out of the stream of the generator: the bytes it had left are lost (R227). -/
def State.RanOut (s t : State) : Prop :=
  ∃ g, t = ({ s with gs := g } : State).raise .eExhausted ∧ Consumed s.gs.bytesLeft s.gs g

/-- A procedure that does not complete has run out of the stream. -/
theorem State.serve_cases (s : State) {r : Served (List Byte)} (h : r.RaisesAtEndOf s.gs) :
    (∃ out g, r = .done out g) ∨ s.RanOut (s.serve r) := by
  cases r with
  | done out g => exact .inl ⟨out, g, rfl⟩
  | raised e g =>
    obtain ⟨rfl, hconsumed⟩ := h e g rfl
    exact .inr ⟨g, rfl, hconsumed⟩

/-- The ends that are left to a command once its checks have passed (R220, R227). -/
inductive Ending (i : Instr) (s : State) : State → Prop
  | completed {t : State} (hok : t.rsp = some .ok) : Ending i s t
  | cipherExhausted (arg : Byte) (inp : List Byte) (hi : i = .ciphBlock arg inp) (hx : s.cs.x = true) :
      Ending i s (s.raise .eExhausted)
  | generatorExhausted {t : State} (hi : i.Serves) (hout : s.RanOut t) : Ending i s t

theorem Ending.serve {i : Instr} {s : State} (hi : i.Serves) {r : Served (List Byte)} (h : r.RaisesAtEndOf s.gs) :
    Ending i s (s.serve r) := by
  rcases s.serve_cases h with ⟨out, g, rfl⟩ | hout
  · exact .completed rfl
  · exact .generatorExhausted hi hout

theorem finished_ending (i : Instr) (s : State) : Ending i s (i.finished s) := by
  cases i with
  | ciphBlock arg inp =>
    simp only [Instr.finished]
    split
    next hx => exact .cipherExhausted arg inp rfl hx
    next => exact .completed rfl
  | prgFill arg len => exact .serve (by simp [Instr.Serves]) (fill_raisesAtEnd _ _)
  | prgRand8 inp | prgRand16 inp | prgRand32 inp | prgRand64 inp =>
    exact .serve (by simp [Instr.Serves]) ((rand_raisesAtEnd _ _).map _)
  | prgUniform8 inp | prgUniform16 inp | prgUniform32 inp | prgUniform64 inp =>
    exact .serve (by simp [Instr.Serves]) ((uniform_raisesAtEnd (by decide) _ _).map _)
  | _ => exact .completed rfl

/-- Every execution reaches one of these ends, or fails a check. -/
theorem exec_ending {i : Instr} {s t : State} (h : exec i s = .next t) :
    Ending i s t ∨ ∃ c ∈ i.checks s, t = s.raise c.2 := by
  rcases exec_finished_or_failed h with ⟨-, rfl⟩ | ⟨c, hmem, -, -, heq⟩
  · exact .inl (finished_ending i s)
  · exact .inr ⟨c, hmem, heq⟩

/-- A command that passes its checks answers `OK` or `E_EXHAUSTED`. -/
theorem Ending.rsp {i : Instr} {s t : State} (h : Ending i s t) : t.rsp = some .ok ∨ t.rsp = some .eExhausted := by
  cases h with
  | completed hok => exact .inl hok
  | cipherExhausted => exact .inr rfl
  | generatorExhausted _ hout =>
    obtain ⟨g, rfl, -⟩ := hout
    exact .inr rfl

/-- Settles O13: a command that passes its checks answers none of these codes, and a failed check changes nothing but the
latch and the response. -/
theorem errorsOtherThanExhaustionArePrecise : Obligations.ErrorsOtherThanExhaustionArePrecise := by
  intro i s t e hexec hrsp hok hexhausted
  rcases exec_ending hexec with hending | ⟨c, -, rfl⟩
  · rcases hending.rsp with hend | hend
    · exact absurd (Option.some.inj (hrsp.symm.trans hend)) hok
    · exact absurd (Option.some.inj (hrsp.symm.trans hend)) hexhausted
  · obtain rfl : c.2 = e := Option.some.inj hrsp
    rfl

/-- No check reports `E_EXHAUSTED`. -/
theorem checks_status_ne_eExhausted (i : Instr) (s : State) : ∀ c ∈ i.checks s, c.2 ≠ .eExhausted := by
  cases i <;> simp [Instr.checks, argZero, outlenMax, outlenMin, lenIs, modeIs, keyed, seeded]

/-- Settles O16: no check reports the code, and of the ends left to a command that passes them two do. -/
theorem exhaustionIsRaisedWhereABlockIsNeeded : Obligations.ExhaustionIsRaisedWhereABlockIsNeeded := by
  intro i s t hexec hrsp
  rcases exec_ending hexec with hending | ⟨c, hmem, rfl⟩
  · cases hending with
    | completed hok => simp [hok] at hrsp
    | cipherExhausted arg inp hi hx => exact .inl ⟨⟨arg, inp, hi⟩, hx, rfl⟩
    | generatorExhausted hi hout =>
      obtain ⟨g, rfl, hconsumed⟩ := hout
      exact .inr ⟨hi, rfl, hconsumed.exhausted⟩
  · exact absurd (Option.some.inj hrsp) (checks_status_ne_eExhausted i s c hmem)

/-! ### The order of the checks -/

/-- No command meets a condition of R225 and one of R226 (R228). -/
theorem outOfSequence_not_unseeded {i : Instr} {s : State} (h : i.outOfSequence s) : ¬ i.unseeded s := by
  cases i with
  | hashUpdate | hashFinal | macUpdate | macFinal | macVerify | ciphBlock => exact id
  | _ => exact h.elim

open Classical in
/-- R228: the one check that is reported, by the conditions of R222 to R226 in their order. -/
theorem firstError_checks (i : Instr) (s : State) : firstError (i.checks s) =
    if ¬ i.argLegal then some .eIllegal
    else if ¬ i.outlenLegal then some .eOutlen
    else if ¬ i.lenLegal then some .eLen
    else if i.outOfSequence s then some .eSeq
    else if i.unseeded s then some .eUnseeded
    else none := by
  cases i with
  | macVerify outlen inp =>
    have hzero : outlen = 0#8 ↔ ¬ 1 ≤ outlen.toNat := by bv_omega
    by_cases hmin : 1 ≤ outlen.toNat <;>
      simp [Instr.checks, outlenMin, outlenMax, lenIs, modeIs, Instr.outOfSequence, Instr.unseeded, hzero, hmin]
  | prgStir | prgFill | prgRand8 | prgRand16 | prgRand32 | prgRand64 | prgUniform8 | prgUniform16 | prgUniform32
  | prgUniform64 =>
    cases hgsd : s.gsd <;> simp [Instr.checks, argZero, lenIs, seeded, Instr.outOfSequence, Instr.unseeded, hgsd]
  | _ => simp [Instr.checks, argZero, outlenMax, lenIs, modeIs, keyed, Instr.outOfSequence, Instr.unseeded]

/-- Settles O15: of the conditions in their order the first that holds is the error reported; when none holds the checks
pass, and the command ends as one that passes them can. -/
theorem firstFailingCheckIsReported : Obligations.FirstFailingCheckIsReported := by
  intro i s
  refine ⟨fun harg => exec_of_failed ?_, fun harg houtlen => exec_of_failed ?_,
    fun harg houtlen hlen => exec_of_failed ?_, fun ⟨harg, houtlen, hlen⟩ hseq => exec_of_failed ?_,
    fun ⟨harg, houtlen, hlen⟩ hunseeded => exec_of_failed ?_, fun ⟨harg, houtlen, hlen⟩ hseq hunseeded => ?_⟩
  · simp [firstError_checks, harg]
  · simp [firstError_checks, harg, houtlen]
  · simp [firstError_checks, harg, houtlen, hlen]
  · simp [firstError_checks, harg, houtlen, hlen, hseq]
  · have hseq : ¬ i.outOfSequence s := fun h => outOfSequence_not_unseeded h hunseeded
    simp [firstError_checks, harg, houtlen, hlen, hseq, hunseeded]
  · have hpass : firstError (i.checks s) = none := by
      simp [firstError_checks, harg, houtlen, hlen, hseq, hunseeded]
    exact ⟨_, exec_of_passed hpass, (finished_ending i s).rsp⟩

/-! ### Requests beyond the end of the stream -/

/-- The state after a command that ran out of the stream, written out. -/
theorem State.RanOut.next {s t : State} (h : s.RanOut t) :
    ∃ g, t = { s with
        gs := g, err := if s.err = .ok then .eExhausted else s.err, rsp := some .eExhausted, dout := [] } ∧
      g.c.x = true ∧ g.off.val = 64 ∧ (s.gs.ServedZeroed → g.buf = Vector.replicate 64 0) := by
  obtain ⟨g, rfl, hconsumed⟩ := h
  obtain ⟨hx, hoff⟩ := hconsumed.exhausted
  exact ⟨g, rfl, hx, hoff, fun hzero => (hconsumed.servedZeroed hzero).buf_eq_zero hoff⟩

theorem exec_ciphBlock_exhausted {s : State} (hck : s.ck = true) (hcn : s.cn = true) (hx : s.cs.x = true) :
    exec (.ciphBlock 0 []) s = .next (s.raise .eExhausted) := by
  have hpass : firstError (Instr.checks s (.ciphBlock 0 [])) = none := by
    simp [Instr.checks, argZero, lenIs, keyed, hck, hcn]
  rw [exec_of_passed hpass, Instr.finished, if_pos hx]

/-- A fill of more bytes than the stream has runs out of it. -/
theorem ranOut_of_fill {s : State} {k : Nat} (h : s.gs.bytesLeft < k) : s.RanOut (s.serve (fill k s.gs)) := by
  refine (s.serve_cases (fill_raisesAtEnd k s.gs)).resolve_left fun ⟨out, g, hdone⟩ => ?_
  have hleft := (stream_of_fill_done hdone).2.bytesLeft
  omega

/-- A rejection loop that completes has found an accepted draw in the stream. -/
theorem accepted_of_drawLoop_done {n ub t draws v : Nat} {g g' : Generator}
    (h : drawLoop (8 * n) ub t draws g = .done v g') : ∃ j, n * (j + 1) ≤ g.bytesLeft ∧ t ≤ drawAt n g j := by
  induction draws generalizing g with
  | zero => cases h
  | succ draws ih =>
    rcases fill_cases n g with ⟨g₁, hfill, hdraw⟩ | ⟨-, g₁, hfill, -⟩
    · have hr := rand_of_fill_done hfill
      have hleft := hdraw.bytesLeft
      rcases Nat.lt_or_ge (drawAt n g 0) t with hreject | haccept
      · rw [drawLoop_of_rejected hr hreject] at h
        obtain ⟨j, hj, haccept⟩ := ih h
        exact ⟨j + 1, by rw [Nat.mul_succ]; omega, hdraw.drawAt j ▸ haccept⟩
      · exact ⟨0, by omega, haccept⟩
    · have hr : rand (8 * n) g = .raised .eExhausted g₁ := by simp [rand, hfill]
      rw [drawLoop_of_raised hr] at h
      cases h

/-- A bounded draw none of whose draws in the stream is accepted runs out of it. -/
theorem ranOut_of_uniform {s : State} {n ub : Nat} (hn : 0 < n) (hub : 2 ≤ ub)
    (hreject : ∀ j, n * (j + 1) ≤ s.gs.bytesLeft → drawAt n s.gs j < (2 ^ (8 * n) - ub) % ub) (f : Nat → List Byte) :
    s.RanOut (s.serve ((uniform (8 * n) ub s.gs).map f)) := by
  have hend := uniform_raisesAtEnd (w := 8 * n) (by omega) ub s.gs
  refine (s.serve_cases (hend.map f)).resolve_left fun ⟨out, g, hdone⟩ => ?_
  cases huniform : uniform (8 * n) ub s.gs with
  | raised e g₁ => simp [huniform] at hdone
  | done v g₁ =>
    rw [uniform_of_two_le hub] at huniform
    obtain ⟨j, hj, haccept⟩ := accepted_of_drawLoop_done huniform
    exact (hreject j hj).not_ge haccept

/-- Settles O51: `CIPH_BLOCK` raises without touching its context, and the other commands run out of the stream. -/
theorem requestsBeyondTheStreamAreExhausted : Obligations.RequestsBeyondTheStreamAreExhausted := by
  refine ⟨fun s hck hcn hx => exec_ciphBlock_exhausted hck hcn hx, fun s len hgsd hshort => ?_,
    fun s inp n i hi hlen hgsd hbound hreject => ?_⟩
  · obtain ⟨g, heq, hleft⟩ := (ranOut_of_fill hshort).next
    exact ⟨g, (exec_prgFill hgsd len).trans (congrArg _ heq), hleft⟩
  · have hcommand : UniformOfBytes i inp n := hi
    obtain ⟨g, heq, hleft⟩ := (ranOut_of_uniform hcommand.pos hbound hreject (leBytes n)).next
    exact ⟨g, (hcommand.exec_eq hlen hgsd).trans (congrArg _ heq), hleft⟩

/-! ### The latch along a run -/

/-- Every command answers with a status (R220). -/
theorem exec_rsp {i : Instr} {s t : State} (h : exec i s = .next t) : ∃ e, t.rsp = some e := by
  cases exec_unitEffect h <;> exact ⟨_, rfl⟩

/-- While the latch is clear a step sets it exactly when it answers an error. -/
theorem step_err_ok_iff {s s' : State} (hclear : s.err = .ok) (hstep : step s = .next s') :
    s'.err = .ok ↔ (!s.responds || s'.rsp == some .ok) = true := by
  rcases step_cases s with ⟨hcmd, heq⟩ | ⟨rest, hcmd, heq⟩ |
    ⟨cw, rest, hcmd, ⟨i, -, heq⟩ | ⟨-, heq⟩ | ⟨e, -, -, heq⟩⟩ <;> rw [heq] at hstep
  · cases hstep
    simp [State.responds, hcmd, hclear]
  · cases hstep
    simp [State.responds, hcmd, State.reset]
  · obtain ⟨e, he⟩ := exec_rsp hstep
    have herr : s'.err = e := (latchKeepsTheFirstError i _ s' e hstep he).2 hclear
    simp [State.responds, hcmd, he, herr]
  · cases hstep
  · cases hstep
    simp [State.responds, hcmd, hclear]

/-- A run that ends has a first step with a next state. -/
theorem runSteps_succ_eq_next {n : Nat} {s t : State} (h : runSteps (n + 1) s = .next t) :
    ∃ s', step s = .next s' ∧ runSteps n s' = .next t := by
  unfold runSteps at h
  split at h
  next s' hstep => exact ⟨s', hstep, h⟩
  all_goals cases h

theorem everyResponseOk_succ_iff (n : Nat) (s : State) : s.everyResponseOk (n + 1) = true ↔
    ∃ s', step s = .next s' ∧ (!s.responds || s'.rsp == some .ok) = true ∧ s'.everyResponseOk n = true := by
  cases hstep : step s with
  | next s' => simp [everyResponseOk_succ n hstep]
  | fault r => simp [State.everyResponseOk, hstep]
  | refused r => simp [State.everyResponseOk, hstep]

/-- A run all of whose responses are `OK` ends, with the latch as clear as it was. -/
theorem runSteps_of_everyResponseOk {n : Nat} {s : State} (hclear : s.err = .ok) (h : s.everyResponseOk n = true) :
    ∃ t, runSteps n s = .next t ∧ t.err = .ok := by
  induction n generalizing s with
  | zero => exact ⟨s, rfl, hclear⟩
  | succ n ih =>
    obtain ⟨s', hstep, hrsp, hrest⟩ := (everyResponseOk_succ_iff n s).1 h
    rw [runSteps_succ n hstep]
    exact ih ((step_err_ok_iff hclear hstep).2 hrsp) hrest

/-- From a clear latch the responses alone decide. -/
theorem noErrorRecorded_iff {n : Nat} {s : State} (hclear : s.err = .ok) :
    s.noErrorRecorded n ↔ s.everyResponseOk n = true :=
  ⟨And.left, fun h => ⟨h, runSteps_of_everyResponseOk hclear h⟩⟩

/-- Nothing that stands at the ports is a reset, by the input or by `SYS_RESET`. -/
def State.NoReset (s : State) : Prop :=
  .reset ∉ s.cmd ∧ ∀ cw, .command cw ∈ s.cmd → opcodeOf cw ≠ 0x01

/-- A step takes from `CMD` and puts nothing there. -/
theorem step_cmd_subset {s s' : State} (hstep : step s = .next s') : s'.cmd ⊆ s.cmd := by
  rcases step_cases s with ⟨-, heq⟩ | ⟨rest, hcmd, heq⟩ |
    ⟨cw, rest, hcmd, ⟨i, -, heq⟩ | ⟨-, heq⟩ | ⟨e, -, -, heq⟩⟩ <;> rw [heq] at hstep
  · cases hstep
    exact List.Subset.refl _
  · cases hstep
    simp [hcmd]
  · rw [(noCommandTouchesWhatTheHostIssuesNext i _ s' hstep).1]
    simp [hcmd]
  · cases hstep
  · cases hstep
    simp [hcmd]

theorem State.NoReset.step {s s' : State} (h : s.NoReset) (hstep : step s = .next s') : s'.NoReset :=
  have hsubset := step_cmd_subset hstep
  ⟨fun hmem => h.1 (hsubset hmem), fun cw hmem => h.2 cw (hsubset hmem)⟩

/-- Without a reset an error stays in the latch. -/
theorem State.NoReset.step_err_ne_ok {s s' : State} (h : s.NoReset) (hlatched : s.err ≠ .ok)
    (hstep : Machine.step s = .next s') : s'.err ≠ .ok := by
  obtain ⟨hreset, hcommand⟩ := h
  rcases step_cases s with ⟨-, heq⟩ | ⟨rest, hcmd, heq⟩ |
    ⟨cw, rest, hcmd, ⟨i, hdec, heq⟩ | ⟨-, heq⟩ | ⟨e, -, -, heq⟩⟩ <;> rw [heq] at hstep
  · cases hstep
    exact hlatched
  · simp [hcmd] at hreset
  · obtain ⟨e, he⟩ := exec_rsp hstep
    rcases (latchKeepsTheFirstError i _ s' e hstep he).1 hlatched with hkept | ⟨-, arg, inp, rfl, -⟩
    · rwa [hkept]
    · exact absurd (fields_of_decode_ok hdec).1.symm (hcommand cw (by simp [hcmd]))
  · cases hstep
  · cases hstep
    simp [hlatched]

/-- The latch of a run without a reset, once it holds an error. -/
theorem State.NoReset.runSteps_err_ne_ok {n : Nat} {s t : State} (h : s.NoReset) (hlatched : s.err ≠ .ok)
    (hrun : runSteps n s = .next t) : t.err ≠ .ok := by
  induction n generalizing s with
  | zero =>
    cases hrun
    exact hlatched
  | succ n ih =>
    obtain ⟨s', hstep, hrest⟩ := runSteps_succ_eq_next hrun
    exact ih (h.step hstep) (h.step_err_ne_ok hlatched hstep) hrest

/-- Without a reset a latch that is clear at the end was clear all along, so no response was an error. -/
theorem State.NoReset.everyResponseOk {n : Nat} {s t : State} (h : s.NoReset) (hclear : s.err = .ok)
    (hrun : runSteps n s = .next t) (hend : t.err = .ok) : s.everyResponseOk n = true := by
  induction n generalizing s with
  | zero => rfl
  | succ n ih =>
    obtain ⟨s', hstep, hrest⟩ := runSteps_succ_eq_next hrun
    have hclear' : s'.err = .ok := by
      by_contra hlatched
      exact (h.step hstep).runSteps_err_ne_ok hlatched hrest hend
    exact (everyResponseOk_succ_iff n s).2
      ⟨s', hstep, (step_err_ok_iff hclear hstep).1 hclear', ih (h.step hstep) hclear' hrest⟩

/-- Settles O60: with a clear latch each step sets it exactly when it answers an error; without a reset it is then never
cleared. -/
theorem noFaultIsRecordedWhenEveryResponseIsOk : Obligations.NoFaultIsRecordedWhenEveryResponseIsOk := by
  refine ⟨fun n s hclear => noErrorRecorded_iff hclear, fun n s t hclear hreset hcommand hrun => ?_⟩
  have hnoReset : s.NoReset := ⟨hreset, hcommand⟩
  rw [noErrorRecorded_iff hclear]
  refine ⟨hnoReset.everyResponseOk hclear hrun, fun hok => ?_⟩
  obtain ⟨t', hrun', herr⟩ := runSteps_of_everyResponseOk hclear hok
  obtain rfl : t' = t := by simpa [hrun] using hrun'.symm
  exact herr

end Sys2Proof.Machine
end

section
/-! SUPPORT. The statements about reset and hazards (70_reset_and_hazards.md): what the reset input leaves, and that a stir
reaches no byte that is already in the buffer.

A `Fill` of no more bytes than are buffered is a single read of the buffer (`fill_of_buffered`); a stir writes the context
only, so it commutes with that read (`takeBuffered_stirGenerator`). -/

namespace Sys2Proof.Machine

/-! ### The reset input -/

/-- All that is left of a state is what the host has still to issue. -/
theorem State.hardwareReset_eq (s : State) : s.hardwareReset = { State.reset with cmd := s.cmd, din := s.din } := rfl

/-- Settles O7: the step takes the reset off `CMD` and resets the rest. -/
theorem resetInputRestoresTheResetState : Obligations.ResetInputRestoresTheResetState := by
  intro s rest hcmd
  have hfetch : s.fetch = .reset { s with cmd := rest } := State.fetch_reset hcmd
  simp only [step, hfetch, State.hardwareReset_eq]

/-! ### A stir and the buffer -/

/-- What the buffer still holds is served from it alone, with no refill. -/
theorem fill_of_buffered {k : Nat} {g : Generator} (hk : k ≤ 64 - g.off.val) :
    fill k g = .done (takeBuffered k g).1 (takeBuffered k g).2 := by
  rcases Nat.eq_zero_or_pos k with rfl | hpos
  · rw [fill_zero, takeBuffered_zero]
  · have hrefill : refill g = .ok g := refill_of_buffered (by omega)
    rw [fill_of_refill_ok (j := k) hrefill hpos.ne' (Nat.min_eq_left hk).symm, Nat.sub_self, fill_zero,
      Served.map_done, List.append_nil]

/-- Bytes taken from the buffer and a stir do not see each other. -/
theorem takeBuffered_stirGenerator (j : Nat) (inp : List Byte) (g : Generator) :
    takeBuffered j (stirGenerator inp g) = ((takeBuffered j g).1, stirGenerator inp (takeBuffered j g).2) := by
  simp only [takeBuffered, stirGenerator]

/-- Settles O49: both fills are one read of the same buffer, which the stir leaves as it is. -/
theorem bufferedBytesOutliveAStir : Obligations.BufferedBytesOutliveAStir := by
  intro inp g g' k out hk hfill
  have hk' : k ≤ 64 - (stirGenerator inp g).off.val := by rwa [stirGenerator_off]
  rw [fill_of_buffered hk] at hfill
  cases hfill
  rw [fill_of_buffered hk', takeBuffered_stirGenerator]

end Sys2Proof.Machine
end
